-- ==== Sys2Proof/Word.lean ====
section
/-! DEFINITION. The value types of the block: every value is an unsigned bit vector (00_scope.md R8). -/

namespace Sys2Proof

/-- An 8-bit register, memory byte or immediate `kk` (10_state.md R20, R26, R35). -/
abbrev Byte := BitVec 8

/-- A 16-bit value: an opcode, `PC`, `I` or a call-stack slot (10_state.md R23, R24, R25). -/
abbrev Word := BitVec 16

/-- A register number, the 4-bit field `x` or `y` (10_state.md R20). -/
abbrev Reg := BitVec 4

/-- A key identifier, 0x0 to 0xF (45_timers_keys.md R212). -/
abbrev Key := BitVec 4

/-- `zext_16` of a byte (00_scope.md R8). -/
abbrev Byte.toWord (b : Byte) : Word := b.setWidth 16

end Sys2Proof
end

