-- ==== Sys2Proof/Config.lean ====
section
/-! DEFINITION. The fixed sizes of the block (00_scope.md R5, R7), the parameters it takes (R6), and the one free
value, the random byte of Cxkk. -/

namespace Sys2Proof.Config

/-- MEM_SIZE: addresses 0x000 to 0xFFF (00_scope.md R5). -/
abbrev memSize : Nat := 0x1000

/-- FONT_BASE: the font region is 0x050 to 0x09F (00_scope.md R5). -/
abbrev fontBase : Nat := 0x050

/-- The font's size: 16 glyphs of 5 bytes (00_scope.md R5). -/
abbrev fontSize : Nat := 80

/-- PROG_BASE: where a program is loaded and entered (00_scope.md R5). -/
abbrev progBase : Nat := 0x200

/-- FB_W: the framebuffer's columns (00_scope.md R5). -/
abbrev fbWidth : Nat := 64

/-- FB_H: the framebuffer's rows (00_scope.md R5). -/
abbrev fbHeight : Nat := 32

/-- The 80 bytes at 0x050 to 0x09F after reset (10_state.md R27). -/
abbrev Font := Vector Byte fontSize

/-- The named parameters the source leaves open (00_scope.md R6). A machine's parameters stand in its State, so that a
statement about every state is a statement about every value of them (log 3). -/
structure Params where
  /-- `STACK_DEPTH`: the call stack's capacity (10_state.md R24). -/
  stackDepth : Nat
  /-- `FONT` (10_state.md R27). -/
  font : Font
  /-- `ANNN_LOADS_I`: whether the A family loads `I` (44_index_memory.md R190). -/
  annnLoadsI : Bool
  deriving DecidableEq, Repr

/-- 00_scope.md R6: `STACK_DEPTH` is a natural number >= 1. -/
abbrev Params.wf (p : Params) : Prop := 1 ≤ p.stackDepth

/-- FREE VALUE (log 7): the byte that the `k`-th execution of Cxkk draws from the random source; nothing constrains it
(42_alu.md R151, 93_implementation_defined.md U1). -/
opaque randomByte : Nat → Byte

end Sys2Proof.Config
end

