-- ==== Sys2Proof/Syntax.lean ====
section
/-! DEFINITION. The instructions: one constructor per row of spec/opcode_table.json, in the table's order
(30_encoding.md R85-R89, R95). -/

namespace Sys2Proof

/-- An instruction. `x y : Reg` are register fields, `kk : Byte` the immediate byte, `n` the row count, and `nnn` the
12-bit address operand at the width of the register it goes to (zero-extended, 30_encoding.md R82; that it fits 12 bits
is WellFormed's check, log 25). -/
inductive Instr where
  /-- 00E0 CLS (43_display.md R173). -/
  | cls
  /-- 00EE RET (41_control.md R120). -/
  | ret
  /-- 1nnn JP nnn (R121). -/
  | jp (nnn : Word)
  /-- 2nnn CALL nnn (R122). -/
  | call (nnn : Word)
  /-- 3xkk SE Vx, kk (R123). -/
  | seImm (x : Reg) (kk : Byte)
  /-- 4xkk SNE Vx, kk (R124). -/
  | sneImm (x : Reg) (kk : Byte)
  /-- 5xy0 SE Vx, Vy (R125). -/
  | seReg (x y : Reg)
  /-- 6xkk LD Vx, kk (42_alu.md R140). -/
  | ldImm (x : Reg) (kk : Byte)
  /-- 7xkk ADD Vx, kk (R141). -/
  | addImm (x : Reg) (kk : Byte)
  /-- 8xy0 LD Vx, Vy (R142). -/
  | ldReg (x y : Reg)
  /-- 8xy1 OR Vx, Vy (R143). -/
  | orReg (x y : Reg)
  /-- 8xy2 AND Vx, Vy (R144). -/
  | andReg (x y : Reg)
  /-- 8xy3 XOR Vx, Vy (R145). -/
  | xorReg (x y : Reg)
  /-- 8xy4 ADD Vx, Vy (R146). -/
  | addReg (x y : Reg)
  /-- 8xy5 SUB Vx, Vy (R147). -/
  | subReg (x y : Reg)
  /-- 8xy6 SHR Vx (R148); the field `y` is kept, and ignored by the instruction (log 24). -/
  | shr (x y : Reg)
  /-- 8xy7 SUBN Vx, Vy (R149). -/
  | subn (x y : Reg)
  /-- 8xyE SHL Vx (R150); the field `y` is kept, and ignored by the instruction (log 24). -/
  | shl (x y : Reg)
  /-- 9xy0 SNE Vx, Vy (41_control.md R126). -/
  | sneReg (x y : Reg)
  /-- Annn LD I, nnn (44_index_memory.md R190). -/
  | ldI (nnn : Word)
  /-- Bnnn JP V0, nnn (41_control.md R127). -/
  | jpV0 (nnn : Word)
  /-- Cxkk RND Vx, kk (42_alu.md R151). -/
  | rnd (x : Reg) (kk : Byte)
  /-- Dxyn DRW Vx, Vy, n (43_display.md R175). -/
  | drw (x y : Reg) (n : BitVec 4)
  /-- Ex9E SKP Vx (45_timers_keys.md R217). -/
  | skp (x : Reg)
  /-- ExA1 SKNP Vx (R218). -/
  | sknp (x : Reg)
  /-- Fx07 LD Vx, DT (R214). -/
  | ldVxDT (x : Reg)
  /-- Fx0A LD Vx, K (R219). -/
  | ldVxK (x : Reg)
  /-- Fx15 LD DT, Vx (R215). -/
  | ldDT (x : Reg)
  /-- Fx18 LD ST, Vx (R216). -/
  | ldST (x : Reg)
  /-- Fx1E ADD I, Vx (44_index_memory.md R191). -/
  | addI (x : Reg)
  /-- Fx29 LD F, Vx (R192). -/
  | ldF (x : Reg)
  /-- Fx33 LD B, Vx (R193). -/
  | ldB (x : Reg)
  /-- Fx55 LD [I], Vx (R194). -/
  | stRegs (x : Reg)
  /-- Fx65 LD Vx, [I] (R195). -/
  | ldRegs (x : Reg)
  deriving DecidableEq, Repr

end Sys2Proof
end

