-- ==== Sys2Proof/WellFormed.lean ====
section
/-! DEFINITION. Which terms of Instr stand for an opcode: the address operand of the NNN format fits its 12-bit field
(30_encoding.md R81, R82). Every other operand's type is its field's width. -/

namespace Sys2Proof

/-- `nnn` is 12 bits, an address 0x000 to 0xFFF (30_encoding.md R82). -/
def addressFits (nnn : Word) : Bool := decide (nnn.toNat < 0x1000)

/-- The instruction is one that an opcode encodes. -/
def Instr.wellFormed (i : Instr) : Bool :=
  match i with
  | .cls => true
  | .ret => true
  | .jp nnn => addressFits nnn
  | .call nnn => addressFits nnn
  | .seImm _ _ => true
  | .sneImm _ _ => true
  | .seReg _ _ => true
  | .ldImm _ _ => true
  | .addImm _ _ => true
  | .ldReg _ _ => true
  | .orReg _ _ => true
  | .andReg _ _ => true
  | .xorReg _ _ => true
  | .addReg _ _ => true
  | .subReg _ _ => true
  | .shr _ _ => true
  | .subn _ _ => true
  | .shl _ _ => true
  | .sneReg _ _ => true
  | .ldI nnn => addressFits nnn
  | .jpV0 nnn => addressFits nnn
  | .rnd _ _ => true
  | .drw _ _ _ => true
  | .skp _ => true
  | .sknp _ => true
  | .ldVxDT _ => true
  | .ldVxK _ => true
  | .ldDT _ => true
  | .ldST _ => true
  | .addI _ => true
  | .ldF _ => true
  | .ldB _ => true
  | .stRegs _ => true
  | .ldRegs _ => true

end Sys2Proof
end

