-- ==== Sys2Proof/Decode.lean ====
section
/-! DEFINITION. The decoder, total on any bytes, and the encoder, both written from 30_encoding.md R80-R90. -/

namespace Sys2Proof

/-- Why bytes are no instruction. -/
inductive DecodeReject where
  /-- Fewer than the two bytes an opcode has (30_encoding.md R80). -/
  | truncated
  /-- The opcode matches no row of the table: the unknown space (30_encoding.md R90). -/
  | unknownOpcode (op : Word)
  deriving DecidableEq, Repr

/-- `N3 = op[15:12]` (00_scope.md R9). -/
def opN3 (op : Word) : BitVec 4 := op.extractLsb' 12 4

/-- `x = N2 = op[11:8]` (00_scope.md R9). -/
def opX (op : Word) : Reg := op.extractLsb' 8 4

/-- `y = N1 = op[7:4]` (00_scope.md R9). -/
def opY (op : Word) : Reg := op.extractLsb' 4 4

/-- `n = N0 = op[3:0]` (00_scope.md R9). -/
def opN (op : Word) : BitVec 4 := op.extractLsb' 0 4

/-- `kk = op[7:0]` (00_scope.md R9). -/
def opKK (op : Word) : Byte := op.extractLsb' 0 8

/-- `nnn = op[11:0]`, zero-extended to 16 bits (00_scope.md R9, 30_encoding.md R82). -/
def opNNN (op : Word) : Word := (op.extractLsb' 0 12).setWidth 16

/-- Family 0: the whole opcode selects (30_encoding.md R86). -/
def decodeFamily0 (op : Word) : Except DecodeReject Instr :=
  if op = 0x00E0#16 then .ok .cls
  else if op = 0x00EE#16 then .ok .ret
  else .error (.unknownOpcode op)

/-- Family 5: 5xy0 only (30_encoding.md R85). -/
def decodeFamily5 (op : Word) : Except DecodeReject Instr :=
  if opN op = 0x0#4 then .ok (.seReg (opX op) (opY op)) else .error (.unknownOpcode op)

/-- Family 8, by `N0` (30_encoding.md R87). -/
def decodeFamily8 (op : Word) : Except DecodeReject Instr :=
  match opN op with
  | 0x0#4 => .ok (.ldReg (opX op) (opY op))
  | 0x1#4 => .ok (.orReg (opX op) (opY op))
  | 0x2#4 => .ok (.andReg (opX op) (opY op))
  | 0x3#4 => .ok (.xorReg (opX op) (opY op))
  | 0x4#4 => .ok (.addReg (opX op) (opY op))
  | 0x5#4 => .ok (.subReg (opX op) (opY op))
  | 0x6#4 => .ok (.shr (opX op) (opY op))
  | 0x7#4 => .ok (.subn (opX op) (opY op))
  | 0xE#4 => .ok (.shl (opX op) (opY op))
  | _ => .error (.unknownOpcode op)

/-- Family 9: 9xy0 only (30_encoding.md R85). -/
def decodeFamily9 (op : Word) : Except DecodeReject Instr :=
  if opN op = 0x0#4 then .ok (.sneReg (opX op) (opY op)) else .error (.unknownOpcode op)

/-- Family E, by `kk` (30_encoding.md R88). -/
def decodeFamilyE (op : Word) : Except DecodeReject Instr :=
  match opKK op with
  | 0x9E#8 => .ok (.skp (opX op))
  | 0xA1#8 => .ok (.sknp (opX op))
  | _ => .error (.unknownOpcode op)

/-- Family F, by `kk` (30_encoding.md R89). -/
def decodeFamilyF (op : Word) : Except DecodeReject Instr :=
  match opKK op with
  | 0x07#8 => .ok (.ldVxDT (opX op))
  | 0x0A#8 => .ok (.ldVxK (opX op))
  | 0x15#8 => .ok (.ldDT (opX op))
  | 0x18#8 => .ok (.ldST (opX op))
  | 0x1E#8 => .ok (.addI (opX op))
  | 0x29#8 => .ok (.ldF (opX op))
  | 0x33#8 => .ok (.ldB (opX op))
  | 0x55#8 => .ok (.stRegs (opX op))
  | 0x65#8 => .ok (.ldRegs (opX op))
  | _ => .error (.unknownOpcode op)

/-- The primary map, by `N3` (30_encoding.md R84, R85). The A family decodes to its row; whether it loads `I` or is
UnknownOpcode is the parameter ANNN_LOADS_I's, in its meaning (44_index_memory.md R190, log 5). -/
def decodeWord (op : Word) : Except DecodeReject Instr :=
  match opN3 op with
  | 0x0#4 => decodeFamily0 op
  | 0x1#4 => .ok (.jp (opNNN op))
  | 0x2#4 => .ok (.call (opNNN op))
  | 0x3#4 => .ok (.seImm (opX op) (opKK op))
  | 0x4#4 => .ok (.sneImm (opX op) (opKK op))
  | 0x5#4 => decodeFamily5 op
  | 0x6#4 => .ok (.ldImm (opX op) (opKK op))
  | 0x7#4 => .ok (.addImm (opX op) (opKK op))
  | 0x8#4 => decodeFamily8 op
  | 0x9#4 => decodeFamily9 op
  | 0xA#4 => .ok (.ldI (opNNN op))
  | 0xB#4 => .ok (.jpV0 (opNNN op))
  | 0xC#4 => .ok (.rnd (opX op) (opKK op))
  | 0xD#4 => .ok (.drw (opX op) (opY op) (opN op))
  | 0xE#4 => decodeFamilyE op
  | 0xF#4 => decodeFamilyF op
  | _ => .error (.unknownOpcode op) -- no 4-bit value is left

/-- Decoding a byte sequence: the high byte comes first (30_encoding.md R80). Answers the instruction and the bytes
after it. -/
def decode (bytes : List Byte) : Except DecodeReject (Instr × List Byte) :=
  match bytes with
  | hi :: lo :: rest =>
    match decodeWord (hi ++ lo) with
    | .ok i => .ok (i, rest)
    | .error e => .error e
  | _ => .error .truncated

/-- Format XKK (30_encoding.md R81). -/
def encodeXKK (n3 : BitVec 4) (x : Reg) (kk : Byte) : Word := n3 ++ x ++ kk

/-- Formats XY and XYN (30_encoding.md R81). -/
def encodeXYN (n3 : BitVec 4) (x y : Reg) (n0 : BitVec 4) : Word := n3 ++ x ++ y ++ n0

/-- Format NNN (30_encoding.md R81). -/
def encodeNNN (n3 : BitVec 4) (nnn : Word) : Word := n3 ++ nnn.setWidth 12

/-- The opcode of a well-formed instruction (30_encoding.md R81, R85-R89). -/
def encode (i : Instr) : Word :=
  match i with
  | .cls => 0x00E0#16
  | .ret => 0x00EE#16
  | .jp nnn => encodeNNN 0x1#4 nnn
  | .call nnn => encodeNNN 0x2#4 nnn
  | .seImm x kk => encodeXKK 0x3#4 x kk
  | .sneImm x kk => encodeXKK 0x4#4 x kk
  | .seReg x y => encodeXYN 0x5#4 x y 0x0#4
  | .ldImm x kk => encodeXKK 0x6#4 x kk
  | .addImm x kk => encodeXKK 0x7#4 x kk
  | .ldReg x y => encodeXYN 0x8#4 x y 0x0#4
  | .orReg x y => encodeXYN 0x8#4 x y 0x1#4
  | .andReg x y => encodeXYN 0x8#4 x y 0x2#4
  | .xorReg x y => encodeXYN 0x8#4 x y 0x3#4
  | .addReg x y => encodeXYN 0x8#4 x y 0x4#4
  | .subReg x y => encodeXYN 0x8#4 x y 0x5#4
  | .shr x y => encodeXYN 0x8#4 x y 0x6#4
  | .subn x y => encodeXYN 0x8#4 x y 0x7#4
  | .shl x y => encodeXYN 0x8#4 x y 0xE#4
  | .sneReg x y => encodeXYN 0x9#4 x y 0x0#4
  | .ldI nnn => encodeNNN 0xA#4 nnn
  | .jpV0 nnn => encodeNNN 0xB#4 nnn
  | .rnd x kk => encodeXKK 0xC#4 x kk
  | .drw x y n => encodeXYN 0xD#4 x y n
  | .skp x => encodeXKK 0xE#4 x 0x9E#8
  | .sknp x => encodeXKK 0xE#4 x 0xA1#8
  | .ldVxDT x => encodeXKK 0xF#4 x 0x07#8
  | .ldVxK x => encodeXKK 0xF#4 x 0x0A#8
  | .ldDT x => encodeXKK 0xF#4 x 0x15#8
  | .ldST x => encodeXKK 0xF#4 x 0x18#8
  | .addI x => encodeXKK 0xF#4 x 0x1E#8
  | .ldF x => encodeXKK 0xF#4 x 0x29#8
  | .ldB x => encodeXKK 0xF#4 x 0x33#8
  | .stRegs x => encodeXKK 0xF#4 x 0x55#8
  | .ldRegs x => encodeXKK 0xF#4 x 0x65#8

/-- The two bytes of an opcode, as the hardware stores them: the high byte at the lower address (30_encoding.md R80). -/
def wordBytes (op : Word) : List Byte := [op.extractLsb' 8 8, op.extractLsb' 0 8]

/-- The bytes of a well-formed instruction. -/
def encodeBytes (i : Instr) : List Byte := wordBytes (encode i)

/-- An instruction's bits numbered as spec/opcode_table.json numbers them: one 16-bit word, and every bit from `nbits`
on is 0. -/
def tableWord (nbits w : Nat) : Word := BitVec.ofNat 16 (w % 2 ^ nbits)

/-- The instruction the decoder reads from the bytes of the table's word. -/
def decodeTableWord (nbits w : Nat) : Option Instr :=
  match decode (wordBytes (tableWord nbits w)) with
  | .ok (i, _) => some i
  | .error _ => none

end Sys2Proof
end

