-- ==== Sys2Proof/Machine/Defaults.lean ====
section
/-! DEFINITION. The spec's default values of the parameters (00_scope.md R6), and what memory holds after reset. -/

namespace Sys2Proof.Machine

/-- Default of `STACK_DEPTH` (00_scope.md R6, decision D6; log 6). -/
def defaultStackDepth : Nat := 16

/-- Default of `ANNN_LOADS_I`: the source's literal reading, Annn is UnknownOpcode (44_index_memory.md R190, decision
D17; log 5). -/
def defaultAnnnLoadsI : Bool := false

/-- PRESUMED (log 4): glyphs 0 to 7 of the conventional font (10_state.md R27). -/
def defaultGlyphsLow : List Byte :=
  [0xF0, 0x90, 0x90, 0x90, 0xF0] ++ [0x20, 0x60, 0x20, 0x20, 0x70] ++
  [0xF0, 0x10, 0xF0, 0x80, 0xF0] ++ [0xF0, 0x10, 0xF0, 0x10, 0xF0] ++
  [0x90, 0x90, 0xF0, 0x10, 0x10] ++ [0xF0, 0x80, 0xF0, 0x10, 0xF0] ++
  [0xF0, 0x80, 0xF0, 0x90, 0xF0] ++ [0xF0, 0x10, 0x20, 0x40, 0x40]

/-- PRESUMED (log 4): glyphs 8 to F of the conventional font (10_state.md R27). -/
def defaultGlyphsHigh : List Byte :=
  [0xF0, 0x90, 0xF0, 0x90, 0xF0] ++ [0xF0, 0x90, 0xF0, 0x10, 0xF0] ++
  [0xF0, 0x90, 0xF0, 0x90, 0x90] ++ [0xE0, 0x90, 0xE0, 0x90, 0xE0] ++
  [0xF0, 0x80, 0x80, 0x80, 0xF0] ++ [0xE0, 0x90, 0x90, 0x90, 0xE0] ++
  [0xF0, 0x80, 0xF0, 0x80, 0xF0] ++ [0xF0, 0x80, 0xF0, 0x80, 0x80]

/-- The `k`-th byte of the default font. -/
def defaultFontByte (k : Nat) : Byte := (defaultGlyphsLow ++ defaultGlyphsHigh).getD k 0

/-- Default of `FONT` (10_state.md R27, decision D16; log 4). -/
def defaultFont : Config.Font :=
  ⟨⟨(List.range Config.fontSize).map defaultFontByte⟩, by simp⟩

/-- The spec's default parameters (00_scope.md R6). -/
def defaultParams : Config.Params :=
  { stackDepth := defaultStackDepth, font := defaultFont, annnLoadsI := defaultAnnnLoadsI }

/-- What an unlisted address reads as: the reset contents, FONT at 0x050 to 0x09F and 0 elsewhere (20_memory.md R67,
log 8). -/
def resetByte (font : Config.Font) (a : Nat) : Byte :=
  if h : Config.fontBase ≤ a ∧ a < Config.fontBase + Config.fontSize then
    font[a - Config.fontBase]'(by omega)
  else 0

end Sys2Proof.Machine
end

