-- ==== Sys2Proof/Machine/State.lean ====
section
/-! DEFINITION. The machine's state as plain data (10_state.md R20-R31), the reasons a step stops, and the state after
reset (70_reset_and_hazards.md R260). -/

namespace Sys2Proof.Machine

/-- The wait state of the block (10_state.md R31). -/
inductive Mode where
  | ready
  | awaitKey
  deriving DecidableEq, Repr

/-- Which kind of access met OutOfBounds (60_exceptions.md R233). -/
inductive AccessKind where
  /-- The opcode fetch; the value recorded is `PC`. -/
  | fetch
  /-- The byte range of Dxyn, Fx33, Fx55, Fx65; the value recorded is `I`. -/
  | data
  /-- The key index of Ex9E and ExA1; the value recorded is `Vx`, zero-extended. -/
  | key
  deriving DecidableEq, Repr

/-- The fatal conditions (60_exceptions.md R230, R232): the command ends with this status and no state changes (log 2). -/
inductive Fault where
  /-- Raised by the fetch, by Dxyn, Fx33, Fx55, Fx65 and by Ex9E, ExA1 (R233). Safe: the spec itself raises it. -/
  | outOfBounds (kind : AccessKind) (value : Word)
  /-- Raised by 00EE with an empty call stack; records `PC` (R234). Safe: the spec itself raises it. -/
  | stackUnderflow (pc : Word)
  /-- Raised by 2nnn with a full call stack; records `PC` (R235). Safe: the spec itself raises it. -/
  | stackOverflow (pc : Word)
  /-- Raised by the loadProgram command, by no step; records the length (R231). Safe: the spec itself raises it. -/
  | programTooLarge (len : Nat)
  deriving DecidableEq, Repr

/-- Reasons to give an instruction no meaning. -/
inductive Refusal where
  /-- Raised by exec's arm of an instruction that has no meaning yet; no arm does. Safe. -/
  | notModelled (mnemonic : String)
  deriving DecidableEq, Repr

/-- Memory as the list of the bytes that differ from what an unlisted address reads as, addresses strictly rising
(20_memory.md R60, log 8). -/
abbrev Memory := List Host.Cell

/-- The canonical form of a memory: addresses of the block, strictly rising, and no entry equal to what an unlisted
address reads as. -/
abbrev Memory.wf (font : Config.Font) (m : Memory) : Prop :=
  m.Pairwise (fun c d => c.1 < d.1) ∧ ∀ c ∈ m, c.1 < Config.memSize ∧ c.2 ≠ resetByte font c.1

/-- The framebuffer, `FB[c][r]` with column `c` in 0..63 and row `r` in 0..31 (10_state.md R30). -/
structure Framebuffer where
  cols : Vector (Vector Bool Config.fbHeight) Config.fbWidth
  deriving DecidableEq, Repr

/-- Every pixel 0 (43_display.md R170). -/
def Framebuffer.allOff : Framebuffer := ⟨Vector.replicate _ (Vector.replicate _ false)⟩

/-- Everything the spec gives the machine (10_state.md R20-R31), its parameters (00_scope.md R6), and the counter of
random draws. -/
structure State where
  /-- The parameters of this machine; no command writes them (log 3). -/
  params : Config.Params
  /-- V0 to VF (10_state.md R20). -/
  v : Vector Byte 16
  /-- The index register `I` (R23). -/
  i : Word
  /-- The program counter (R25). -/
  pc : Word
  /-- The stack pointer: the number of occupied slots (R24, log 12). -/
  sp : Nat
  /-- The call stack's slots, `STACK[0]` first (R24). -/
  stack : List Word
  /-- Memory (R26). -/
  mem : Memory
  /-- The delay timer (R28). -/
  dt : Byte
  /-- The sound timer (R28). -/
  st : Byte
  /-- The key flags (R29). -/
  key : Vector Bool 16
  /-- The framebuffer (R30). -/
  fb : Framebuffer
  /-- The wait state (R31). -/
  mode : Mode
  /-- The register the pending Fx0A waits for (R31). -/
  waitReg : Reg
  /-- The MODEL's own: how many random bytes have been drawn (log 7). -/
  draws : Nat
  deriving DecidableEq, Repr

/-- What the reset command leaves of a machine with these parameters (70_reset_and_hazards.md R260); the random source is
no state of the block (10_state.md R32), so its count is given. -/
def State.afterReset (p : Config.Params) (draws : Nat) : State where
  params := p
  v := Vector.replicate 16 0
  i := 0
  pc := BitVec.ofNat 16 Config.progBase
  sp := 0
  stack := List.replicate p.stackDepth 0
  mem := []
  dt := 0
  st := 0
  key := Vector.replicate 16 false
  fb := Framebuffer.allOff
  mode := .ready
  waitReg := 0
  draws := draws

/-- The machine right after reset, which is also start-up (70_reset_and_hazards.md R260, R261), with the spec's default
parameters. -/
def State.reset : State := State.afterReset defaultParams 0

/-- What a step, a meaning or loadProgram answers. -/
abbrev Result := Host.Outcome State Fault Refusal

end Sys2Proof.Machine
end

