-- ==== Sys2Proof/Machine/Ops.lean ====
section
/-! DEFINITION. The named operations over registers, the program counter, the call stack and memory, the fetch, and
raising a condition (10_state.md, 20_memory.md, 40_step.md R106, R107, 60_exceptions.md R232, R239). -/

namespace Sys2Proof.Machine

/-- VF is `V[15]` (10_state.md R21). -/
def regF : Reg := 0xF#4

/-- Read `V[x]` (10_state.md R20). -/
def State.reg (s : State) (x : Reg) : Byte := s.v[x.toNat]'x.isLt

/-- Write `V[x]` (10_state.md R20). -/
def State.setReg (s : State) (x : Reg) (b : Byte) : State := { s with v := s.v.set x.toNat b x.isLt }

/-- Write `I` (10_state.md R23). -/
def State.setIndex (s : State) (a : Word) : State := { s with i := a }

/-- Write `PC`; targets are not checked here (41_control.md R128). -/
def State.setPc (s : State) (a : Word) : State := { s with pc := a }

/-- The default advance, modulo 65536 (40_step.md R106). -/
def State.advance (s : State) : State := s.setPc (s.pc + 2)

/-- A skip: 4 when the condition holds, else 2 (41_control.md R123-R126). -/
def State.skipIf (s : State) (c : Bool) : State := s.setPc (if c then s.pc + 4 else s.pc + 2)

/-- Slot `STACK[k]`. Only slots below STACK_DEPTH exist; no reachable state asks for another (log 11). -/
def State.stackSlot (s : State) (k : Nat) : Word := s.stack.getD k 0

/-- Push a return address (41_control.md R122). -/
def State.push (s : State) (a : Word) : State := { s with stack := s.stack.set s.sp a, sp := s.sp + 1 }

/-- Pop: the slot keeps its stale value (10_state.md R24, 41_control.md R120). -/
def State.pop (s : State) : State := { s with sp := s.sp - 1 }

/-- Write `DT` (10_state.md R28). -/
def State.setDelay (s : State) (b : Byte) : State := { s with dt := b }

/-- Write `ST` (10_state.md R28). -/
def State.setSound (s : State) (b : Byte) : State := { s with st := b }

/-- Write the framebuffer (10_state.md R30). -/
def State.setFb (s : State) (f : Framebuffer) : State := { s with fb := f }

/-- Read `KEY[k]` (10_state.md R29). -/
def State.keyDown (s : State) (k : Key) : Bool := s.key[k.toNat]'k.isLt

/-- Write `KEY[k]` (45_timers_keys.md R212). -/
def State.setKey (s : State) (k : Key) (p : Bool) : State := { s with key := s.key.set k.toNat p k.isLt }

/-- Enter the key wait (45_timers_keys.md R219). -/
def State.awaitKey (s : State) (x : Reg) : State := { s with mode := .awaitKey, waitReg := x }

/-- Leave the key wait (45_timers_keys.md R213). -/
def State.setReady (s : State) : State := { s with mode := .ready }

/-- Count one draw of the random source (42_alu.md R151, log 7). -/
def State.drawn (s : State) : State := { s with draws := s.draws + 1 }

/-! ## Memory -/

/-- The listed byte at an address, if there is one. -/
def Memory.find? (m : Memory) (a : Nat) : Option Byte :=
  match m with
  | [] => none
  | c :: rest => if c.1 = a then some c.2 else Memory.find? rest a

/-- `MemRead(a, 1)` (00_scope.md R11, 20_memory.md R66). -/
def Memory.read (font : Config.Font) (m : Memory) (a : Nat) : Byte :=
  (Memory.find? m a).getD (resetByte font a)

/-- List a byte, keeping the addresses rising. -/
def Memory.insert (m : Memory) (a : Nat) (b : Byte) : Memory :=
  match m with
  | [] => [(a, b)]
  | c :: rest =>
    if a < c.1 then (a, b) :: c :: rest
    else if a = c.1 then (a, b) :: rest
    else c :: Memory.insert rest a b

/-- Take an address off the list. -/
def Memory.erase (m : Memory) (a : Nat) : Memory :=
  match m with
  | [] => []
  | c :: rest => if c.1 = a then Memory.erase rest a else c :: Memory.erase rest a

/-- `MemWrite(a, 1, b)` (00_scope.md R11, 20_memory.md R66, R68), in canonical form. -/
def Memory.write (font : Config.Font) (m : Memory) (a : Nat) (b : Byte) : Memory :=
  if b = resetByte font a then Memory.erase m a else Memory.insert m a b

/-- Read one byte of the machine's memory. -/
def State.readByte (s : State) (a : Nat) : Byte := Memory.read s.params.font s.mem a

/-- Write one byte of the machine's memory. -/
def State.writeByte (s : State) (a : Nat) (b : Byte) : State :=
  { s with mem := Memory.write s.params.font s.mem a b }

/-- Read `len` bytes from address `a` upwards. -/
def State.readBytes (s : State) (a len : Nat) : List Byte :=
  match len with
  | 0 => []
  | n + 1 => s.readByte a :: s.readBytes (a + 1) n

/-- Write bytes from address `a` upwards, in order. -/
def State.writeBytes (s : State) (a : Nat) (bytes : List Byte) : State :=
  match bytes with
  | [] => s
  | b :: rest => (s.writeByte a b).writeBytes (a + 1) rest

/-- Write bytes into `V[j], V[j+1], …`, in order. -/
def State.writeRegs (s : State) (j : Nat) (bytes : List Byte) : State :=
  match bytes with
  | [] => s
  | b :: rest => (s.setReg (BitVec.ofNat 4 j) b).writeRegs (j + 1) rest

/-! ## Conditions -/

/-- Taking a fatal condition. The block has no trap entry: nothing is saved, nothing changes and control goes nowhere;
the command ends with the status (60_exceptions.md R232, R239, log 2). There is no return from one (R240). -/
def raise (f : Fault) : Result := .fault f

/-- An opcode of the unknown space: only the advance (40_step.md R107). The status UnknownOpcode is not fatal. -/
def unknownOpcode (s : State) : State := s.advance

/-- The range check of a data access of `len` bytes at `I`, made before anything is written (20_memory.md R64). The sum
does not wrap. -/
def withDataRange (s : State) (len : Nat) (body : Result) : Result :=
  if 0 < len ∧ 0xFFF < s.i.toNat + len - 1 then raise (.outOfBounds .data s.i) else body

/-! ## Fetch -/

/-- Fetch the opcode at `PC`, big-endian (20_memory.md R62, 40_step.md R103). -/
def fetch (s : State) : Except Fault Word :=
  if 0xFFE < s.pc.toNat then .error (.outOfBounds .fetch s.pc)
  else .ok (s.readByte s.pc.toNat ++ s.readByte (s.pc.toNat + 1))

/-- A step in the wait state does nothing (40_step.md R102). -/
def stepAwaiting (s : State) : Result := .next s

/-- A step whose opcode is in the unknown space (40_step.md R107). -/
def stepUnknown (s : State) : Result := .next (unknownOpcode s)

/-- The state with a word's two bytes where the next step fetches: the block is READY, and a `PC` that no fetch can use
is moved to the program base (log 10). -/
def State.placeWord (s : State) (op : Word) : State :=
  let r := s.setReady
  let t := if 0xFFE < r.pc.toNat then r.setPc (BitVec.ofNat 16 Config.progBase) else r
  t.writeBytes t.pc.toNat (wordBytes op)

end Sys2Proof.Machine
end

