-- ==== Sys2Proof/Machine/Operands.lean ====
section
/-! DEFINITION. The operand forms of the instructions (30_encoding.md R82, R83, 44_index_memory.md R196): a register, an
immediate, the index-relative byte ranges, the register range V0..Vx, the key in Vx, the glyph of Vx and the decimal
digits of Vx. -/

namespace Sys2Proof.Machine

/-- The bytes `V[0] .. V[x]`, inclusive (44_index_memory.md R194). -/
def regRange (s : State) (x : Reg) : List Byte :=
  (List.range (x.toNat + 1)).map fun j => s.reg (BitVec.ofNat 4 j)

/-- The bytes at `I .. I + len - 1` (44_index_memory.md R195, R196, 43_display.md R175). -/
def indexedBytes (s : State) (len : Nat) : List Byte := s.readBytes s.i.toNat len

/-- Store bytes at `I, I + 1, …` (44_index_memory.md R193, R194, R196). -/
def storeIndexed (s : State) (bytes : List Byte) : State := s.writeBytes s.i.toNat bytes

/-- The three decimal digits of a byte: hundreds, tens, ones (44_index_memory.md R193). -/
def bcdDigits (b : Byte) : List Byte :=
  [BitVec.ofNat 8 (b.toNat / 100), BitVec.ofNat 8 (b.toNat / 10 % 10), BitVec.ofNat 8 (b.toNat % 10)]

/-- The address of glyph `Vx`: all 8 bits are used, with no mask (44_index_memory.md R192; log 17). -/
def glyphAddress (b : Byte) : Word := BitVec.ofNat 16 (Config.fontBase + 5 * b.toNat)

/-- The key operand of Ex9E and ExA1: the value in `Vx`; above 0xF it names no key and OutOfBounds is raised
(45_timers_keys.md R217, R218; log 18). -/
def withKey (s : State) (x : Reg) (body : Key → Result) : Result :=
  if 0xF < (s.reg x).toNat then raise (.outOfBounds .key (s.reg x).toWord)
  else body ((s.reg x).setWidth 4)

/-- The target of Bnnn, modulo 65536 (41_control.md R127). -/
def indexedTarget (s : State) (nnn : Word) : Word := nnn + (s.reg 0x0#4).toWord

end Sys2Proof.Machine
end

