-- ==== Sys2Proof/Machine/Flags.lean ====
section
/-! DEFINITION. The flag computations (42_alu.md R153, R154) and the order of the result and flag writes. -/

namespace Sys2Proof.Machine

/-- A flag as the byte VF receives. -/
def flagByte (c : Bool) : Byte := if c then 1 else 0

/-- Carry of an 8-bit add: 1 iff `a + b > 255` (42_alu.md R146, R154). -/
def carryFlag (a b : Byte) : Byte := flagByte (decide (255 < a.toNat + b.toNat))

/-- NOT borrow of `a - b`: 1 iff `a >= b`, so equal operands give 1 (42_alu.md R147, R149, R154). -/
def notBorrowFlag (a b : Byte) : Byte := flagByte (decide (b.toNat ≤ a.toNat))

/-- The bit a right shift moves out (42_alu.md R148). -/
def lowBitFlag (a : Byte) : Byte := flagByte (a.getLsbD 0)

/-- The bit a left shift moves out (42_alu.md R150). -/
def highBitFlag (a : Byte) : Byte := flagByte (a.getLsbD 7)

/-- Both values were computed from the registers as read; the result is written first and the flag last, so that with
`x = F` the flag stays (42_alu.md R153; log 13). -/
def State.setResultAndFlag (s : State) (x : Reg) (result flag : Byte) : State :=
  (s.setReg x result).setReg regF flag

end Sys2Proof.Machine
end

