-- ==== Sys2Proof/Machine/Alu.lean ====
section
/-! DEFINITION. Register loads, the 8-bit ALU and the random byte (42_alu.md). Results wrap modulo 256 (R154). -/

namespace Sys2Proof.Machine

/-- A result in `Vx`, no flag, and the default advance. -/
def finishReg (s : State) (x : Reg) (result : Byte) : Result := .next (s.setReg x result).advance

/-- A result in `Vx`, the flag in VF last, and the default advance (42_alu.md R153). -/
def finishFlag (s : State) (x : Reg) (result flag : Byte) : Result :=
  .next (s.setResultAndFlag x result flag).advance

/-- LD Vx, kk (42_alu.md R140). -/
def execLdImm (x : Reg) (kk : Byte) (s : State) : Result := finishReg s x kk

/-- ADD Vx, kk: no flag (42_alu.md R141). -/
def execAddImm (x : Reg) (kk : Byte) (s : State) : Result := finishReg s x (s.reg x + kk)

/-- LD Vx, Vy (42_alu.md R142). -/
def execLdReg (x y : Reg) (s : State) : Result := finishReg s x (s.reg y)

/-- OR Vx, Vy: VF is no flag here (42_alu.md R143; log 15). -/
def execOrReg (x y : Reg) (s : State) : Result := finishReg s x (s.reg x ||| s.reg y)

/-- AND Vx, Vy (42_alu.md R144; log 15). -/
def execAndReg (x y : Reg) (s : State) : Result := finishReg s x (s.reg x &&& s.reg y)

/-- XOR Vx, Vy (42_alu.md R145; log 15). -/
def execXorReg (x y : Reg) (s : State) : Result := finishReg s x (s.reg x ^^^ s.reg y)

/-- ADD Vx, Vy with carry out to VF (42_alu.md R146). -/
def execAddReg (x y : Reg) (s : State) : Result :=
  finishFlag s x (s.reg x + s.reg y) (carryFlag (s.reg x) (s.reg y))

/-- SUB Vx, Vy with NOT borrow to VF (42_alu.md R147). -/
def execSubReg (x y : Reg) (s : State) : Result :=
  finishFlag s x (s.reg x - s.reg y) (notBorrowFlag (s.reg x) (s.reg y))

/-- SHR Vx: shifts `Vx`; `y` is ignored (42_alu.md R148; log 14). -/
def execShr (x _y : Reg) (s : State) : Result := finishFlag s x (s.reg x >>> 1) (lowBitFlag (s.reg x))

/-- SUBN Vx, Vy: `Vy - Vx` with NOT borrow to VF (42_alu.md R149). -/
def execSubn (x y : Reg) (s : State) : Result :=
  finishFlag s x (s.reg y - s.reg x) (notBorrowFlag (s.reg y) (s.reg x))

/-- SHL Vx: shifts `Vx`; `y` is ignored (42_alu.md R150; log 14). -/
def execShl (x _y : Reg) (s : State) : Result := finishFlag s x (s.reg x <<< 1) (highBitFlag (s.reg x))

/-- RND Vx, kk: one draw (42_alu.md R151; log 7). -/
def execRnd (x : Reg) (kk : Byte) (s : State) : Result :=
  finishReg s.drawn x (Config.randomByte s.draws &&& kk)

end Sys2Proof.Machine
end

