-- ==== Sys2Proof/Machine/Control.lean ====
section
/-! DEFINITION. Control transfer (41_control.md). Each rule writes its own `PC` (40_step.md R106). -/

namespace Sys2Proof.Machine

/-- RET (41_control.md R120): the popped address is already past the call, so nothing is added. -/
def execRet (s : State) : Result :=
  if s.sp = 0 then raise (.stackUnderflow s.pc)
  else .next (s.pop.setPc (s.stackSlot (s.sp - 1)))

/-- JP nnn (41_control.md R121). -/
def execJp (nnn : Word) (s : State) : Result := .next (s.setPc nnn)

/-- CALL nnn (41_control.md R122): pushes `PC + 2` (log 22). -/
def execCall (nnn : Word) (s : State) : Result :=
  if s.sp = s.params.stackDepth then raise (.stackOverflow s.pc)
  else .next ((s.push (s.pc + 2)).setPc nnn)

/-- SE Vx, kk (41_control.md R123). -/
def execSeImm (x : Reg) (kk : Byte) (s : State) : Result := .next (s.skipIf (s.reg x == kk))

/-- SNE Vx, kk (41_control.md R124). -/
def execSneImm (x : Reg) (kk : Byte) (s : State) : Result := .next (s.skipIf (s.reg x != kk))

/-- SE Vx, Vy (41_control.md R125). -/
def execSeReg (x y : Reg) (s : State) : Result := .next (s.skipIf (s.reg x == s.reg y))

/-- SNE Vx, Vy (41_control.md R126). -/
def execSneReg (x y : Reg) (s : State) : Result := .next (s.skipIf (s.reg x != s.reg y))

/-- JP V0, nnn (41_control.md R127). -/
def execJpV0 (nnn : Word) (s : State) : Result := .next (s.setPc (indexedTarget s nnn))

end Sys2Proof.Machine
end

