-- ==== Sys2Proof/Machine/Framebuffer.lean ====
section
/-! DEFINITION. The framebuffer's operations (43_display.md R170-R172): coordinates wrap on every access. -/

namespace Sys2Proof.Machine

/-- Read `FB[px mod 64][py mod 32]` (10_state.md R30). -/
def Framebuffer.get (f : Framebuffer) (px py : Nat) : Bool :=
  (f.cols[px % Config.fbWidth]'(Nat.mod_lt _ (by decide)))[py % Config.fbHeight]'(Nat.mod_lt _ (by decide))

/-- Write `FB[px mod 64][py mod 32]` (10_state.md R30). -/
def Framebuffer.put (f : Framebuffer) (px py : Nat) (b : Bool) : Framebuffer :=
  ⟨f.cols.set (px % Config.fbWidth)
    ((f.cols[px % Config.fbWidth]'(Nat.mod_lt _ (by decide))).set (py % Config.fbHeight) b (Nat.mod_lt _ (by decide)))
    (Nat.mod_lt _ (by decide))⟩

/-- The cell flipped (43_display.md R171). -/
def Framebuffer.toggle (f : Framebuffer) (px py : Nat) : Framebuffer := f.put px py (!f.get px py)

/-- togglePixel: flips the bit and returns the resulting state (43_display.md R171). -/
def Framebuffer.togglePixel (f : Framebuffer) (px py : Nat) : Framebuffer × Bool :=
  (f.toggle px py, (f.toggle px py).get px py)

/-- One bit of a sprite row: when it is set, the old value of its cell is the collision and the cell is toggled
(43_display.md R172). `b = 0` is the leftmost column, the most significant bit. -/
def blitBit (f : Framebuffer) (px py : Nat) (byte : Byte) (b : Nat) : Framebuffer × Bool :=
  if byte.getLsbD (7 - b) then (f.toggle (px + b) py, f.get (px + b) py) else (f, false)

/-- The bits `b, b + 1, …` of a sprite row, `count` of them, collisions OR-reduced (43_display.md R172). -/
def blitBits (f : Framebuffer) (px py : Nat) (byte : Byte) (b count : Nat) : Framebuffer × Bool :=
  match count with
  | 0 => (f, false)
  | k + 1 =>
    let first := blitBit f px py byte b
    let rest := blitBits first.1 px py byte (b + 1) k
    (rest.1, first.2 || rest.2)

/-- One sprite row: its 8 bits (43_display.md R172). -/
def blitRow (f : Framebuffer) (px py : Nat) (byte : Byte) : Framebuffer × Bool := blitBits f px py byte 0 8

/-- blitSprite: row after row downwards, collisions OR-reduced over the whole sprite (43_display.md R172). Where
R174's clause on the second of two blits contradicts R172, which it is derived from, R172 is followed (log 28). -/
def blitSprite (f : Framebuffer) (px py : Nat) (sprite : List Byte) : Framebuffer × Bool :=
  match sprite with
  | [] => (f, false)
  | byte :: rows =>
    let first := blitRow f px py byte
    let rest := blitSprite first.1 px (py + 1) rows
    (rest.1, first.2 || rest.2)

end Sys2Proof.Machine
end

