-- ==== Sys2Proof/Machine/Display.lean ====
section
/-! DEFINITION. The display instructions (43_display.md). -/

namespace Sys2Proof.Machine

/-- CLS (43_display.md R173): only the framebuffer changes. -/
def execCls (s : State) : Result := .next (s.setFb Framebuffer.allOff).advance

/-- The sprite of Dxyn: `n` bytes at `I` (43_display.md R175). -/
def spriteOf (s : State) (n : BitVec 4) : List Byte := indexedBytes s n.toNat

/-- The blit of Dxyn; the coordinates are `Vx` and `Vy` as read before any write (43_display.md R175). -/
def drawSprite (s : State) (x y : Reg) (n : BitVec 4) : Framebuffer × Bool :=
  blitSprite s.fb (s.reg x).toNat (s.reg y).toNat (spriteOf s n)

/-- DRW Vx, Vy, n (43_display.md R175, R176): VF is the collision, written after the blit. -/
def execDrw (x y : Reg) (n : BitVec 4) (s : State) : Result :=
  withDataRange s n.toNat
    (.next ((s.setFb (drawSprite s x y n).1).setReg regF (flagByte (drawSprite s x y n).2)).advance)

end Sys2Proof.Machine
end

