-- ==== Sys2Proof/Machine/IndexMemory.lean ====
section
/-! DEFINITION. Index register and memory instructions (44_index_memory.md). `I` is never changed by an access (R196). -/

namespace Sys2Proof.Machine

/-- LD I, nnn: the parameter ANNN_LOADS_I decides between the load and UnknownOpcode (44_index_memory.md R190; log 5). -/
def execLdI (nnn : Word) (s : State) : Result :=
  if s.params.annnLoadsI then .next (s.setIndex nnn).advance else .next (unknownOpcode s)

/-- ADD I, Vx, modulo 65536, no flag (44_index_memory.md R191). -/
def execAddI (x : Reg) (s : State) : Result := .next (s.setIndex (s.i + (s.reg x).toWord)).advance

/-- LD F, Vx (44_index_memory.md R192). -/
def execLdF (x : Reg) (s : State) : Result := .next (s.setIndex (glyphAddress (s.reg x))).advance

/-- LD B, Vx (44_index_memory.md R193). -/
def execLdB (x : Reg) (s : State) : Result :=
  withDataRange s 3 (.next (storeIndexed s (bcdDigits (s.reg x))).advance)

/-- LD [I], Vx (44_index_memory.md R194). -/
def execStRegs (x : Reg) (s : State) : Result :=
  withDataRange s (x.toNat + 1) (.next (storeIndexed s (regRange s x)).advance)

/-- LD Vx, [I] (44_index_memory.md R195). -/
def execLdRegs (x : Reg) (s : State) : Result :=
  withDataRange s (x.toNat + 1) (.next (s.writeRegs 0 (indexedBytes s (x.toNat + 1))).advance)

end Sys2Proof.Machine
end

