-- ==== Sys2Proof/Machine/TimersKeys.lean ====
section
/-! DEFINITION. The instructions of the timers, the keys and the key wait (45_timers_keys.md). -/

namespace Sys2Proof.Machine

/-- SKP Vx (45_timers_keys.md R217). -/
def execSkp (x : Reg) (s : State) : Result := withKey s x fun k => .next (s.skipIf (s.keyDown k))

/-- SKNP Vx (45_timers_keys.md R218). -/
def execSknp (x : Reg) (s : State) : Result := withKey s x fun k => .next (s.skipIf (!s.keyDown k))

/-- LD Vx, DT (45_timers_keys.md R214). -/
def execLdVxDT (x : Reg) (s : State) : Result := .next (s.setReg x s.dt).advance

/-- LD Vx, K: enters the wait and leaves `PC`; the resume command does the rest (45_timers_keys.md R213, R219; log 19). -/
def execLdVxK (x : Reg) (s : State) : Result := .next (s.awaitKey x)

/-- LD DT, Vx (45_timers_keys.md R215). -/
def execLdDT (x : Reg) (s : State) : Result := .next (s.setDelay (s.reg x)).advance

/-- LD ST, Vx (45_timers_keys.md R216). -/
def execLdST (x : Reg) (s : State) : Result := .next (s.setSound (s.reg x)).advance

end Sys2Proof.Machine
end

