-- ==== Sys2Proof/Machine/Step.lean ====
section
/-! DEFINITION. The step() command as a step of the host's machine (40_step.md R109), and the state in which a given
opcode is the next one fetched. -/

namespace Sys2Proof.Machine

/-- One step (40_step.md R102-R109): in the wait state nothing; else fetch, decode, execute. -/
def step (s : State) : Host.Outcome State Fault Refusal :=
  match s.mode with
  | .awaitKey => stepAwaiting s
  | .ready =>
    match fetch s with
    | .error f => raise f
    | .ok op =>
      match decodeWord op with
      | .ok i => exec i s
      | .error _ => stepUnknown s

/-- `s` with an instruction's word, numbered as spec/opcode_table.json numbers it, where `step` fetches next
(log 10). -/
def State.withFetchWord (s : State) (nbits w : Nat) : State := s.placeWord (tableWord nbits w)

end Sys2Proof.Machine
end

