-- ==== Sys2Proof/Machine/Commands.lean ====
section
/-! DEFINITION. The host's commands, each one atomic transition, with their statuses and the diagnostics event
(40_step.md R100, R101, R108, 60_exceptions.md R230). -/

namespace Sys2Proof.Machine

/-- What the host may read (10_state.md R33). -/
inductive Element where
  | v (x : Reg)
  | index
  | pc
  | sp
  | stackSlot (k : Nat)
  | memory (a : BitVec 12)
  | delay
  | sound
  | key (k : Key)
  | pixel (c : BitVec 6) (r : BitVec 5)
  | mode
  | waitReg
  deriving DecidableEq, Repr

/-- A command of the host (40_step.md R100). -/
inductive Command where
  | reset
  | loadProgram (bytes : List Byte)
  | step
  | tick
  | resume (k : Key)
  | setKeyState (k : Key) (pressed : Bool)
  | read (e : Element)
  deriving DecidableEq, Repr

/-- The statuses a command returns (60_exceptions.md R230). -/
inductive Status where
  | ok
  | awaitingKey
  | unknownOpcode (op : Word)
  | outOfBounds (kind : AccessKind) (value : Word)
  | stackUnderflow (pc : Word)
  | stackOverflow (pc : Word)
  | programTooLarge (len : Nat)
  deriving DecidableEq, Repr

/-- The numeric codes (60_exceptions.md R230). -/
def Status.code (st : Status) : Nat :=
  match st with
  | .ok => 0
  | .awaitingKey => 1
  | .unknownOpcode _ => 2
  | .outOfBounds _ _ => 3
  | .stackUnderflow _ => 4
  | .stackOverflow _ => 5
  | .programTooLarge _ => 6

/-- Which statuses are fatal for their command (60_exceptions.md R230, R232). -/
def Status.fatal (st : Status) : Bool :=
  match st with
  | .ok => false
  | .awaitingKey => false
  | .unknownOpcode _ => false
  | .outOfBounds _ _ => true
  | .stackUnderflow _ => true
  | .stackOverflow _ => true
  | .programTooLarge _ => true

/-- The decoded fields of an opcode (00_scope.md R9). -/
structure Fields where
  x : Reg
  y : Reg
  n : BitVec 4
  kk : Byte
  nnn : Word
  deriving DecidableEq, Repr

/-- The diagnostics event of a step (40_step.md R108): the opcode is absent when none was fetched, and its
fields with it (log 26). -/
structure Event where
  opcode : Option Word
  fields : Option Fields
  status : Option Status
  deriving DecidableEq, Repr

/-- What a command gives back to the host: its status, the event of a step, the value of a read. The status is absent
only for an instruction without a meaning, and there is none (theorem exec_never_refuses). -/
structure Reply where
  status : Option Status
  event : Option Event
  value : Option Nat
  deriving DecidableEq, Repr

/-- A fatal condition as the status the host gets (60_exceptions.md R230). -/
def faultStatus (f : Fault) : Status :=
  match f with
  | .outOfBounds kind value => .outOfBounds kind value
  | .stackUnderflow pc => .stackUnderflow pc
  | .stackOverflow pc => .stackOverflow pc
  | .programTooLarge len => .programTooLarge len

/-- The status of an instruction that took a next state: Fx0A answers AwaitingKey (45_timers_keys.md R219), Annn without
ANNN_LOADS_I answers UnknownOpcode (44_index_memory.md R190), every other one OK (40_step.md R109). -/
def completedStatus (op : Word) (i : Instr) (s : State) : Status :=
  match i with
  | .cls => .ok
  | .ret => .ok
  | .jp _ => .ok
  | .call _ => .ok
  | .seImm _ _ => .ok
  | .sneImm _ _ => .ok
  | .seReg _ _ => .ok
  | .ldImm _ _ => .ok
  | .addImm _ _ => .ok
  | .ldReg _ _ => .ok
  | .orReg _ _ => .ok
  | .andReg _ _ => .ok
  | .xorReg _ _ => .ok
  | .addReg _ _ => .ok
  | .subReg _ _ => .ok
  | .shr _ _ => .ok
  | .subn _ _ => .ok
  | .shl _ _ => .ok
  | .sneReg _ _ => .ok
  | .ldI _ => if s.params.annnLoadsI then .ok else .unknownOpcode op
  | .jpV0 _ => .ok
  | .rnd _ _ => .ok
  | .drw _ _ _ => .ok
  | .skp _ => .ok
  | .sknp _ => .ok
  | .ldVxDT _ => .ok
  | .ldVxK _ => .awaitingKey
  | .ldDT _ => .ok
  | .ldST _ => .ok
  | .addI _ => .ok
  | .ldF _ => .ok
  | .ldB _ => .ok
  | .stRegs _ => .ok
  | .ldRegs _ => .ok

/-- The opcode a step fetches, if it fetches one (40_step.md R102, R103). -/
def stepOpcode (s : State) : Option Word :=
  match s.mode with
  | .awaitKey => none
  | .ready =>
    match fetch s with
    | .error _ => none
    | .ok op => some op

/-- The status of a fetched opcode's execution (60_exceptions.md R238, points 3 and 4). -/
def opcodeStatus (op : Word) (s : State) : Option Status :=
  match decodeWord op with
  | .error _ => some (.unknownOpcode op)
  | .ok i =>
    match exec i s with
    | .next _ => some (completedStatus op i s)
    | .fault f => some (faultStatus f)
    | .refused _ => none

/-- The status of the step() command, in the order of 60_exceptions.md R238. -/
def stepStatus (s : State) : Option Status :=
  match s.mode with
  | .awaitKey => some .awaitingKey
  | .ready =>
    match fetch s with
    | .error f => some (faultStatus f)
    | .ok op => opcodeStatus op s

/-- The fields of an opcode (40_step.md R104). -/
def fieldsOf (op : Word) : Fields := { x := opX op, y := opY op, n := opN op, kk := opKK op, nnn := opNNN op }

/-- The event of the step() command (40_step.md R108). -/
def stepEvent (s : State) : Event :=
  { opcode := stepOpcode s, fields := (stepOpcode s).map fieldsOf, status := stepStatus s }

/-- The state a result leaves: a condition discards every write, so the command leaves the state before it
(60_exceptions.md R232). -/
def stateAfter (s : State) (r : Result) : State :=
  match r with
  | .next t => t
  | .fault _ => s
  | .refused _ => s

/-- The reset command (70_reset_and_hazards.md R260). The random source is no state of the block and goes on. -/
def resetCommand (s : State) : State := State.afterReset s.params s.draws

/-- loadProgram: copies to 0x200 and writes nothing else, or raises ProgramTooLarge with nothing written
(20_memory.md R70, 60_exceptions.md R231). -/
def loadProgram (bytes : List Byte) (s : State) : Result :=
  if Config.memSize - Config.progBase < bytes.length then raise (.programTooLarge bytes.length)
  else .next (s.writeBytes Config.progBase bytes)

/-- A timer counts down while it is above 0 (45_timers_keys.md R210). -/
def countDown (b : Byte) : Byte := if b = 0 then 0 else b - 1

/-- The tick command: each timer by its own test, in either mode (45_timers_keys.md R210). -/
def tick (s : State) : State := (s.setDelay (countDown s.dt)).setSound (countDown s.st)

/-- The resume command: completes a pending Fx0A, and does nothing otherwise (45_timers_keys.md R213; log 19). -/
def resume (k : Key) (s : State) : State :=
  match s.mode with
  | .awaitKey => ((s.setReg s.waitReg (k.setWidth 8)).advance).setReady
  | .ready => s

/-- The number a read of MODE answers. DESIGN CHOICE (log 29): the spec names READY and AWAIT_KEY, 1 bit, and numbers
neither (10_state.md R31, R33); the model answers 0 for READY and 1 for AWAIT_KEY. -/
def modeNumber (m : Mode) : Nat :=
  match m with
  | .ready => 0
  | .awaitKey => 1

/-- The value of an element, read without effect (10_state.md R33). The number of MODE and no value for a stack slot from
STACK_DEPTH on are the model's choices (log 29). -/
def readElement (e : Element) (s : State) : Option Nat :=
  match e with
  | .v x => some (s.reg x).toNat
  | .index => some s.i.toNat
  | .pc => some s.pc.toNat
  | .sp => some s.sp
  | .stackSlot k => (s.stack[k]?).map BitVec.toNat
  | .memory a => some (s.readByte a.toNat).toNat
  | .delay => some s.dt.toNat
  | .sound => some s.st.toNat
  | .key k => some (s.keyDown k).toNat
  | .pixel c r => some (s.fb.get c.toNat r.toNat).toNat
  | .mode => some (modeNumber s.mode)
  | .waitReg => some s.waitReg.toNat

/-- The reply of a command that always succeeds (40_step.md R100). -/
def replyOk : Reply := { status := some .ok, event := none, value := none }

/-- The reply of loadProgram (40_step.md R100). -/
def loadReply (r : Result) : Reply :=
  match r with
  | .next _ => replyOk
  | .fault f => { status := some (faultStatus f), event := none, value := none }
  | .refused _ => { status := none, event := none, value := none }

/-- One command: the state after it and what the host gets back (40_step.md R100). -/
def command (c : Command) (s : State) : State × Reply :=
  match c with
  | .reset => (resetCommand s, replyOk)
  | .loadProgram bytes => (stateAfter s (loadProgram bytes s), loadReply (loadProgram bytes s))
  | .step =>
    (stateAfter s (step s), { status := stepStatus s, event := some (stepEvent s), value := none })
  | .tick => (tick s, replyOk)
  | .resume k => (resume k s, replyOk)
  | .setKeyState k pressed => (s.setKey k pressed, replyOk)
  | .read e => (s, { status := some .ok, event := none, value := readElement e s })

/-- The state after a sequence of commands, issued one at a time (40_step.md R101). -/
def runCommands (cs : List Command) (s : State) : State :=
  match cs with
  | [] => s
  | c :: rest => runCommands rest (command c s).1

/-- What the host gets back from a sequence of commands. -/
def repliesOf (cs : List Command) (s : State) : List Reply :=
  match cs with
  | [] => []
  | c :: rest => (command c s).2 :: repliesOf rest (command c s).1

end Sys2Proof.Machine
end

