-- ==== Sys2Proof/Safety.lean ====
section
/-! DEFINITION. The terms the statements use: the invariant, frames, the unknown space, and a sprite as a picture. -/

namespace Sys2Proof.Machine

/-- The invariant of every state a command sequence reaches from reset: a call stack of at least one slot and of
STACK_DEPTH slots, `SP` in 0..STACK_DEPTH (10_state.md R24, 00_scope.md R6), and memory in its canonical form within
0x000..0xFFF (10_state.md R26, log 8). -/
abbrev StateInv (s : State) : Prop :=
  s.params.wf ∧ s.stack.length = s.params.stackDepth ∧ s.sp ≤ s.params.stackDepth ∧
    Memory.wf s.params.font s.mem

/-- What an instruction may change besides `PC`; whatever is not named here stays. -/
structure Touch where
  /-- The registers it may write. -/
  regs : List Reg := []
  /-- It may write `I`. -/
  index : Bool := false
  /-- It may write `SP` and the call stack. -/
  stack : Bool := false
  /-- It may write this many bytes of memory from this address. -/
  memory : Nat × Nat := (0, 0)
  /-- It may write `DT`. -/
  delay : Bool := false
  /-- It may write `ST`. -/
  sound : Bool := false
  /-- It may write the framebuffer. -/
  display : Bool := false
  /-- It may write `MODE` and `WAITREG`. -/
  wait : Bool := false
  /-- It may draw from the random source. -/
  random : Bool := false
  deriving DecidableEq, Repr

/-- From `s` to `t` nothing changed but `PC` and what `w` names: every other register, `I`, the call stack, every byte of
memory outside the named range, the timers, the key flags, every pixel, the wait state, the random draws and the
parameters (00_scope.md R13). -/
def Touch.frame (w : Touch) (s t : State) : Prop :=
  (∀ r, r ∉ w.regs → t.reg r = s.reg r) ∧
  (w.index = false → t.i = s.i) ∧
  (w.stack = false → t.sp = s.sp ∧ t.stack = s.stack) ∧
  (∀ a, a < w.memory.1 ∨ w.memory.1 + w.memory.2 ≤ a → t.readByte a = s.readByte a) ∧
  (w.delay = false → t.dt = s.dt) ∧
  (w.sound = false → t.st = s.st) ∧
  (∀ k, t.keyDown k = s.keyDown k) ∧
  (w.display = false → ∀ c r, t.fb.get c r = s.fb.get c r) ∧
  (w.wait = false → t.mode = s.mode ∧ t.waitReg = s.waitReg) ∧
  (w.random = false → t.draws = s.draws) ∧
  t.params = s.params

/-- The unknown space, nibble by nibble as 30_encoding.md R90 lists it. -/
abbrev unknownSpace (p : Config.Params) (op : Word) : Prop :=
  (opN3 op = 0x0 ∧ op ≠ 0x00E0 ∧ op ≠ 0x00EE) ∨
  (opN3 op = 0x5 ∧ opN op ≠ 0x0) ∨
  (opN3 op = 0x8 ∧ opN op ∈ [0x8#4, 0x9#4, 0xA#4, 0xB#4, 0xC#4, 0xD#4, 0xF#4]) ∨
  (opN3 op = 0x9 ∧ opN op ≠ 0x0) ∨
  (opN3 op = 0xA ∧ p.annnLoadsI = false) ∨
  (opN3 op = 0xE ∧ opKK op ∉ [0x9E#8, 0xA1#8]) ∨
  (opN3 op = 0xF ∧
    opKK op ∉ [0x07#8, 0x0A#8, 0x15#8, 0x18#8, 0x1E#8, 0x29#8, 0x33#8, 0x55#8, 0x65#8])

/-- The sprite `sprite` at column `px`, row `py` covers the cell `FB[c][r]` with a set bit (43_display.md R172): bit `b`
of row `k` lands on column `(px + b) mod 64`, row `(py + k) mod 32`. -/
def spriteCovers (sprite : List Byte) (px py c r : Nat) : Prop :=
  ∃ k b, k < sprite.length ∧ b < 8 ∧ (sprite.getD k 0).getLsbD (7 - b) = true ∧
    (px + b) % 64 = c ∧ (py + k) % 32 = r

/-- What the byte at `a` reads once these bytes are stored from address `start` upwards: the stored byte inside the range,
the old byte outside it. -/
def byteAfterStore (s : State) (start : Nat) (bytes : List Byte) (a : Nat) : Byte :=
  if start ≤ a ∧ a < start + bytes.length then bytes.getD (a - start) 0 else s.readByte a

/-- Every opcode the predicate selects decodes to the instruction made of its fields (an "Encoding" line of files 41 to
45). -/
def encodedAs (selects : Word → Bool) (fields : Word → Instr) : Prop :=
  ∀ op, selects op = true → decodeWord op = .ok (fields op)

/-- The instruction a step executes, when it completes. -/
def completedInstr (s : State) : Option Instr :=
  match stepOpcode s with
  | none => none
  | some op =>
    match decodeWord op with
    | .error _ => none
    | .ok i =>
      match exec i s with
      | .next _ => some i
      | .fault _ => none
      | .refused _ => none

/-- What a completed instruction adds to the count of calls less returns. -/
def callDelta (i : Instr) : Int :=
  match i with
  | .cls => 0
  | .ret => -1
  | .jp _ => 0
  | .call _ => 1
  | .seImm _ _ => 0
  | .sneImm _ _ => 0
  | .seReg _ _ => 0
  | .ldImm _ _ => 0
  | .addImm _ _ => 0
  | .ldReg _ _ => 0
  | .orReg _ _ => 0
  | .andReg _ _ => 0
  | .xorReg _ _ => 0
  | .addReg _ _ => 0
  | .subReg _ _ => 0
  | .shr _ _ => 0
  | .subn _ _ => 0
  | .shl _ _ => 0
  | .sneReg _ _ => 0
  | .ldI _ => 0
  | .jpV0 _ => 0
  | .rnd _ _ => 0
  | .drw _ _ _ => 0
  | .skp _ => 0
  | .sknp _ => 0
  | .ldVxDT _ => 0
  | .ldVxK _ => 0
  | .ldDT _ => 0
  | .ldST _ => 0
  | .addI _ => 0
  | .ldF _ => 0
  | .ldB _ => 0
  | .stRegs _ => 0
  | .ldRegs _ => 0

/-- What a step adds to the count of calls less returns. -/
def stepDelta (s : State) : Int :=
  match completedInstr s with
  | none => 0
  | some i => callDelta i

/-- What a command adds to the count of calls less returns: only a step executes. -/
def commandDelta (c : Command) (s : State) : Int :=
  match c with
  | .step => stepDelta s
  | .reset => 0
  | .loadProgram _ => 0
  | .tick => 0
  | .resume _ => 0
  | .setKeyState _ _ => 0
  | .read _ => 0

/-- Completed calls less completed returns over a sequence of commands (10_state.md R24). -/
def netCalls (cs : List Command) (s : State) : Int :=
  match cs with
  | [] => 0
  | c :: rest => commandDelta c s + netCalls rest (command c s).1

/-- The step command `n` times. -/
def steps (n : Nat) : List Command := List.replicate n Command.step

/-- The step command `n` times and then resume(k). -/
def stepsThenResume (n : Nat) (k : Key) : List Command := steps n ++ [Command.resume k]

/-- Every command of the sequence has the property in the state it is issued in. -/
def alongRun (p : Command → State → Bool) (cs : List Command) (s : State) : Bool :=
  match cs with
  | [] => true
  | c :: rest => p c s && alongRun p rest (command c s).1

/-- The command is no write of DT but for a tick's: no reset, and no step that executes Fx15 (10_state.md R28,
45_timers_keys.md R211). -/
def writesNoDelay (c : Command) (s : State) : Bool :=
  match c with
  | .reset => false
  | .step => decide (∀ x : Reg, completedInstr s ≠ some (.ldDT x))
  | .loadProgram _ => true
  | .tick => true
  | .resume _ => true
  | .setKeyState _ _ => true
  | .read _ => true

/-- The command is no write of ST but for a tick's: no reset, and no step that executes Fx18 (10_state.md R28,
45_timers_keys.md R211). -/
def writesNoSound (c : Command) (s : State) : Bool :=
  match c with
  | .reset => false
  | .step => decide (∀ x : Reg, completedInstr s ≠ some (.ldST x))
  | .loadProgram _ => true
  | .tick => true
  | .resume _ => true
  | .setKeyState _ _ => true
  | .read _ => true

/-- How many of the commands are ticks. -/
def tickCount (cs : List Command) : Nat := cs.count .tick

/-- A result with its next state changed by `f`. -/
def mapNext (f : State → State) (r : Result) : Result :=
  match r with
  | .next t => .next (f t)
  | .fault e => .fault e
  | .refused e => .refused e

end Sys2Proof.Machine
end

