-- ==== Sys2Proof/Certificates/Slice0/Obligations.lean ====
section
/-! DEFINITION. The statements for the provers, each from rules or sections of spec/. -/

open Sys2Proof Sys2Proof.Machine

/-! ## Encoding -/

/-- Words written out from the spec's encodings decode to what they stand for, one or more a family, and words that
match no row decode to none (95_test_vectors.md S7, S8, S9 and section 2.1; 30_encoding.md R81, R85-R89; decision D21 for
5121, 812F and 9121). Two clauses are the model's choice: A123 decodes to its row whatever ANNN_LOADS_I is, and the meaning
makes it UnknownOpcode at the default (log 5, decision D17); 8AB6 keeps the ignored y (log 24). -/
def Obligations.DecodesWordsOfTheSpec : Prop :=
  decodeTableWord 16 0b0000000011100000 = some .cls ∧
  decodeTableWord 16 0x00EE = some .ret ∧
  decodeTableWord 16 0b0001001000000000 = some (.jp 0x200) ∧
  decodeTableWord 16 0x2208 = some (.call 0x208) ∧
  decodeTableWord 16 0x3312 = some (.seImm 3 0x12) ∧
  decodeTableWord 16 0x4312 = some (.sneImm 3 0x12) ∧
  decodeTableWord 16 0x5120 = some (.seReg 1 2) ∧
  decodeTableWord 16 0b0110000000001010 = some (.ldImm 0 0x0A) ∧
  decodeTableWord 16 0x7220 = some (.addImm 2 0x20) ∧
  decodeTableWord 16 0b1000000000010100 = some (.addReg 0 1) ∧
  decodeTableWord 16 0x8AB6 = some (.shr 0xA 0xB) ∧
  decodeTableWord 16 0x9120 = some (.sneReg 1 2) ∧
  decodeTableWord 16 0xA123 = some (.ldI 0x123) ∧
  decodeTableWord 16 0xB300 = some (.jpV0 0x300) ∧
  decodeTableWord 16 0xC30F = some (.rnd 3 0x0F) ∧
  decodeTableWord 16 0xD011 = some (.drw 0 1 1) ∧
  decodeTableWord 16 0xE19E = some (.skp 1) ∧
  decodeTableWord 16 0xFF65 = some (.ldRegs 0xF) ∧
  decodeTableWord 16 0x0000 = none ∧
  decodeTableWord 16 0x00E1 = none ∧
  decodeTableWord 16 0x5121 = none ∧
  decodeTableWord 16 0x812F = none ∧
  decodeTableWord 16 0x9121 = none ∧
  decodeTableWord 16 0xE19F = none ∧
  decodeTableWord 16 0xF075 = none

/-- Decoding the bytes of any well-formed instruction, with any bytes after them, gives it back and leaves those bytes
(30_encoding.md R80-R89). -/
def Obligations.DecodeGivesBackEveryEncodedInstruction : Prop :=
  ∀ (i : Instr) (rest : List Byte), i.wellFormed = true → decode (encodeBytes i ++ rest) = .ok (i, rest)

/-- An opcode that decodes is the encoding of what it decodes to, which is well-formed: no bit of an opcode is dropped,
the ignored `y` of SHR and SHL included (30_encoding.md R80-R89; log 24). -/
def Obligations.EncodeGivesBackEveryDecodedOpcode : Prop :=
  ∀ (op : Word) (i : Instr), decodeWord op = .ok i → encode i = op ∧ i.wellFormed = true

/-- The opcodes that are no instruction under the parameters are exactly the unknown space as R90 lists it: the ones the
decoder rejects, and with ANNN_LOADS_I false the A family (30_encoding.md R84-R90; decisions D17, D21). -/
def Obligations.UnknownOpcodesAreExactlyTheListedSpace : Prop :=
  ∀ (p : Config.Params) (op : Word),
    (decodeWord op = .error (.unknownOpcode op) ∨
      (p.annnLoadsI = false ∧ decodeWord op = .ok (.ldI (opNNN op)))) ↔ unknownSpace p op

/-! ## The step -/

/-- R105: a READY step at a fetchable `PC` runs the instruction its opcode decodes to, as `exec` in that same state; an
opcode that decodes to none only advances `PC` by 2. -/
def Obligations.StepRunsTheDecodedInstruction : Prop :=
  ∀ (s : State), s.mode = .ready → s.pc.toNat ≤ 0xFFE →
    (∀ i, decodeWord (s.readByte s.pc.toNat ++ s.readByte (s.pc.toNat + 1)) = .ok i → step s = exec i s) ∧
    (∀ e, decodeWord (s.readByte s.pc.toNat ++ s.readByte (s.pc.toNat + 1)) = .error e →
      step s = .next (s.setPc (s.pc + 2)))

/-- The fetch reads `PC` and `PC + 1`, high byte first; with `PC > 0xFFE` (decision D2) a READY step raises
OutOfBounds(fetch, PC), leaves the state as it was (decision D32), and its event holds the status and no opcode (R108,
decision D33); that the event then holds no fields is the model's choice (log 26) (20_memory.md R61, R62; 40_step.md R103,
R108). -/
def Obligations.FetchIsBigEndianOrOutOfBounds : Prop :=
  ∀ (s : State),
    (s.pc.toNat ≤ 0xFFE → ∃ op, fetch s = .ok op ∧
      op.toNat = 256 * (s.readByte s.pc.toNat).toNat + (s.readByte (s.pc.toNat + 1)).toNat) ∧
    (0xFFE < s.pc.toNat → s.mode = .ready →
      step s = .fault (.outOfBounds .fetch s.pc) ∧
      command .step s = (s,
        ⟨some (.outOfBounds .fetch s.pc), some ⟨none, none, some (.outOfBounds .fetch s.pc)⟩, none⟩))

/-- R107: a step on an opcode of the unknown space changes `PC` by 2 and nothing else, and returns UnknownOpcode with the
opcode. -/
def Obligations.StepOnUnknownOpcodeOnlyAdvances : Prop :=
  ∀ (s : State) (op : Word), s.mode = .ready → fetch s = .ok op → unknownSpace s.params op →
    step s = .next (s.setPc (s.pc + 2)) ∧ (command .step s).1 = s.setPc (s.pc + 2) ∧
    (command .step s).2.status = some (.unknownOpcode op)

/-- While AWAIT_KEY a step returns AwaitingKey and changes nothing, whatever memory, `PC` and the key flags hold
(40_step.md R102, decision D35); its event holds no opcode (R108), and no fields (log 26). -/
def Obligations.StepWhileAwaitingChangesNothing : Prop :=
  ∀ (s : State), s.mode = .awaitKey →
    step s = .next s ∧ (command .step s).1 = s ∧ (command .step s).2.status = some .awaitingKey ∧
    (command .step s).2.event = some ⟨none, none, some .awaitingKey⟩

/-! ## Control transfer -/

/-- RET raises StackUnderflow(PC) on an empty stack; otherwise it pops, and `PC` is the popped slot with no further
advance (decision D5). The slots keep their values. A popped value above 0xFFE makes the next fetch raise OutOfBounds
(decision D2) (41_control.md R120). -/
def Obligations.RetPopsTheReturnAddress : Prop :=
  decodeWord 0x00EE#16 = .ok .ret ∧
  ∀ (s : State),
    (s.sp = 0 → exec .ret s = .fault (.stackUnderflow s.pc)) ∧
    (∀ n, s.sp = n + 1 → ∃ t, exec .ret s = .next t ∧ t.sp = n ∧ t.pc = s.stackSlot n ∧ t.stack = s.stack ∧
      ({ stack := true } : Touch).frame s t ∧
      (0xFFE < (s.stackSlot n).toNat → fetch t = .error (.outOfBounds .fetch (s.stackSlot n))))

/-- JP nnn sets `PC` to nnn and changes nothing else; nothing is raised. With nnn above 0xFFE it is the next fetch that
raises OutOfBounds (decision D2) (41_control.md R121). -/
def Obligations.JpSetsTheCounter : Prop :=
  encodedAs (fun op => opN3 op == 0x1) (fun op => .jp (opNNN op)) ∧
  ∀ (nnn : Word) (s : State), ∃ t, exec (.jp nnn) s = .next t ∧ t.pc = nnn ∧ ({} : Touch).frame s t ∧
    (0xFFE < nnn.toNat → fetch t = .error (.outOfBounds .fetch nnn))

/-- CALL nnn with room pushes `PC + 2` (decision D5) and jumps; with a full stack it raises StackOverflow(PC)
(decision D6) (41_control.md R122). -/
def Obligations.CallPushesTheNextAddress : Prop :=
  encodedAs (fun op => opN3 op == 0x2) (fun op => .call (opNNN op)) ∧
  ∀ (nnn : Word) (s : State),
    (s.sp = s.params.stackDepth → exec (.call nnn) s = .fault (.stackOverflow s.pc)) ∧
    (StateInv s → s.sp < s.params.stackDepth → ∃ t, exec (.call nnn) s = .next t ∧ t.sp = s.sp + 1 ∧
      t.stackSlot s.sp = s.pc + 2 ∧ (∀ k, k ≠ s.sp → t.stackSlot k = s.stackSlot k) ∧
      t.stack.length = s.stack.length ∧ t.pc = nnn ∧ ({ stack := true } : Touch).frame s t)

/-- R123, R124: SE and SNE with an immediate add 4 or 2 to `PC`, and change nothing else. -/
def Obligations.ImmediateSkipsCompareTheRegister : Prop :=
  encodedAs (fun op => opN3 op == 0x3) (fun op => .seImm (opX op) (opKK op)) ∧
  encodedAs (fun op => opN3 op == 0x4) (fun op => .sneImm (opX op) (opKK op)) ∧
  ∀ (x : Reg) (kk : Byte) (s : State),
    (∃ t, exec (.seImm x kk) s = .next t ∧ t.pc = (if s.reg x = kk then s.pc + 4 else s.pc + 2) ∧
      ({} : Touch).frame s t) ∧
    (∃ t, exec (.sneImm x kk) s = .next t ∧ t.pc = (if s.reg x ≠ kk then s.pc + 4 else s.pc + 2) ∧
      ({} : Touch).frame s t)

/-- SE and SNE of two registers add 4 or 2 to `PC`, and change nothing else; with a low nibble that is not 0 the opcode
is UnknownOpcode (decision D21) (41_control.md R125, R126). -/
def Obligations.RegisterSkipsCompareTheRegisters : Prop :=
  encodedAs (fun op => opN3 op == 0x5 && opN op == 0x0) (fun op => .seReg (opX op) (opY op)) ∧
  encodedAs (fun op => opN3 op == 0x9 && opN op == 0x0) (fun op => .sneReg (opX op) (opY op)) ∧
  (∀ op, (opN3 op = 0x5 ∨ opN3 op = 0x9) → opN op ≠ 0x0 → decodeWord op = .error (.unknownOpcode op)) ∧
  ∀ (x y : Reg) (s : State),
    (∃ t, exec (.seReg x y) s = .next t ∧ t.pc = (if s.reg x = s.reg y then s.pc + 4 else s.pc + 2) ∧
      ({} : Touch).frame s t) ∧
    (∃ t, exec (.sneReg x y) s = .next t ∧ t.pc = (if s.reg x ≠ s.reg y then s.pc + 4 else s.pc + 2) ∧
      ({} : Touch).frame s t)

/-- JP V0, nnn sets `PC` to nnn plus V0 modulo 65536 and changes nothing else; nothing is raised. With a target above
0xFFE it is the next fetch that raises OutOfBounds (decision D2) (41_control.md R127). -/
def Obligations.JpV0AddsRegisterZero : Prop :=
  encodedAs (fun op => opN3 op == 0xB) (fun op => .jpV0 (opNNN op)) ∧
  ∀ (nnn : Word) (s : State), ∃ t, exec (.jpV0 nnn) s = .next t ∧
    t.pc.toNat = (nnn.toNat + (s.reg 0x0).toNat) % 65536 ∧ ({} : Touch).frame s t ∧
    (0xFFE < t.pc.toNat → fetch t = .error (.outOfBounds .fetch t.pc))

/-- A call then a return, with anything between, nested calls included, that leaves `SP` and the call's own slot as the
call left them, comes back to the instruction after the call (90_conflicts.md C4, decision D5). -/
def Obligations.ReturnComesBackAfterTheCall : Prop :=
  ∀ (nnn : Word) (s u : State), StateInv s → s.sp < s.params.stackDepth →
    ∃ t, exec (.call nnn) s = .next t ∧
      (u.sp = t.sp → u.stackSlot s.sp = t.stackSlot s.sp → ∃ w, exec .ret u = .next w ∧ w.pc = s.pc + 2 ∧ w.sp = s.sp)

/-- From every state, a command other than reset adds to `SP` what its completed instruction adds to the calls less the
returns; so over every sequence of commands without a reset `SP` moves by the completed calls less the completed returns,
and after reset, where it is 0, it is that number (10_state.md R24). -/
def Obligations.SpMovesByCompletedCallsLessReturns : Prop :=
  (∀ (c : Command) (s : State), c ≠ .reset → ((command c s).1.sp : Int) = s.sp + commandDelta c s) ∧
  (∀ (cs : List Command) (s : State), (∀ c ∈ cs, c ≠ .reset) →
    ((runCommands cs s).sp : Int) = s.sp + netCalls cs s) ∧
  ∀ (p : Config.Params) (d : Nat), (State.afterReset p d).sp = 0

/-! ## Register loads and ALU -/

/-- R140, R141, R142: the immediate load, the flagless immediate add modulo 256 and the register copy write `Vx`, add 2
to `PC` and change nothing else; VF is written only when `x` names it. -/
def Obligations.LoadsAndImmediateAddWriteVx : Prop :=
  encodedAs (fun op => opN3 op == 0x6) (fun op => .ldImm (opX op) (opKK op)) ∧
  encodedAs (fun op => opN3 op == 0x7) (fun op => .addImm (opX op) (opKK op)) ∧
  encodedAs (fun op => opN3 op == 0x8 && opN op == 0x0) (fun op => .ldReg (opX op) (opY op)) ∧
  ∀ (x y : Reg) (kk : Byte) (s : State),
    (∃ t, exec (.ldImm x kk) s = .next t ∧ t.reg x = kk ∧ t.pc = s.pc + 2 ∧
      ({ regs := [x] } : Touch).frame s t) ∧
    (∃ t, exec (.addImm x kk) s = .next t ∧ (t.reg x).toNat = ((s.reg x).toNat + kk.toNat) % 256 ∧
      t.pc = s.pc + 2 ∧ ({ regs := [x] } : Touch).frame s t) ∧
    (∃ t, exec (.ldReg x y) s = .next t ∧ t.reg x = s.reg y ∧ t.pc = s.pc + 2 ∧
      ({ regs := [x] } : Touch).frame s t)

/-- OR, AND and XOR write `Vx` bit by bit and nothing else but `PC`: VF is no flag of theirs (decision D9)
(42_alu.md R143-R145). -/
def Obligations.LogicWritesVxOnly : Prop :=
  encodedAs (fun op => opN3 op == 0x8 && opN op == 0x1) (fun op => .orReg (opX op) (opY op)) ∧
  encodedAs (fun op => opN3 op == 0x8 && opN op == 0x2) (fun op => .andReg (opX op) (opY op)) ∧
  encodedAs (fun op => opN3 op == 0x8 && opN op == 0x3) (fun op => .xorReg (opX op) (opY op)) ∧
  ∀ (x y : Reg) (s : State),
    (∃ t, exec (.orReg x y) s = .next t ∧
      (∀ b, (t.reg x).getLsbD b = ((s.reg x).getLsbD b || (s.reg y).getLsbD b)) ∧ t.pc = s.pc + 2 ∧
      ({ regs := [x] } : Touch).frame s t) ∧
    (∃ t, exec (.andReg x y) s = .next t ∧
      (∀ b, (t.reg x).getLsbD b = ((s.reg x).getLsbD b && (s.reg y).getLsbD b)) ∧ t.pc = s.pc + 2 ∧
      ({ regs := [x] } : Touch).frame s t) ∧
    (∃ t, exec (.xorReg x y) s = .next t ∧
      (∀ b, (t.reg x).getLsbD b = ((s.reg x).getLsbD b ^^ (s.reg y).getLsbD b)) ∧ t.pc = s.pc + 2 ∧
      ({ regs := [x] } : Touch).frame s t)

/-- ADD Vx, Vy: the sum modulo 256 in `Vx`, VF 1 exactly when the sum passes 255; with `x = F` the flag stays
(decision D7) (42_alu.md R146, R153, R154). -/
def Obligations.AddGivesSumAndCarry : Prop :=
  encodedAs (fun op => opN3 op == 0x8 && opN op == 0x4) (fun op => .addReg (opX op) (opY op)) ∧
  ∀ (x y : Reg) (s : State), ∃ t, exec (.addReg x y) s = .next t ∧
    (x ≠ regF → (t.reg x).toNat = ((s.reg x).toNat + (s.reg y).toNat) % 256) ∧
    t.reg regF = (if 255 < (s.reg x).toNat + (s.reg y).toNat then 1 else 0) ∧ t.pc = s.pc + 2 ∧
    ({ regs := [x, regF] } : Touch).frame s t

/-- SUB and SUBN: the difference modulo 256 in `Vx`, VF 1 exactly when there is no borrow (equal operands give 1); with
`x = F` the flag stays (decision D7) (42_alu.md R147, R149, R153, R154). -/
def Obligations.SubtractionsGiveDifferenceAndNotBorrow : Prop :=
  encodedAs (fun op => opN3 op == 0x8 && opN op == 0x5) (fun op => .subReg (opX op) (opY op)) ∧
  encodedAs (fun op => opN3 op == 0x8 && opN op == 0x7) (fun op => .subn (opX op) (opY op)) ∧
  ∀ (x y : Reg) (s : State),
    (∃ t, exec (.subReg x y) s = .next t ∧
      (x ≠ regF → (t.reg x).toNat = ((s.reg x).toNat + 256 - (s.reg y).toNat) % 256) ∧
      t.reg regF = (if (s.reg y).toNat ≤ (s.reg x).toNat then 1 else 0) ∧ t.pc = s.pc + 2 ∧
      ({ regs := [x, regF] } : Touch).frame s t) ∧
    (∃ t, exec (.subn x y) s = .next t ∧
      (x ≠ regF → (t.reg x).toNat = ((s.reg y).toNat + 256 - (s.reg x).toNat) % 256) ∧
      t.reg regF = (if (s.reg x).toNat ≤ (s.reg y).toNat then 1 else 0) ∧ t.pc = s.pc + 2 ∧
      ({ regs := [x, regF] } : Touch).frame s t)

/-- SHR and SHL shift `Vx` itself by one, for every `y` (decision D8), and VF is the bit shifted out; with `x = F` the
flag stays (decision D7) (42_alu.md R148, R150, R153). -/
def Obligations.ShiftsMoveOneBitIntoTheFlag : Prop :=
  encodedAs (fun op => opN3 op == 0x8 && opN op == 0x6) (fun op => .shr (opX op) (opY op)) ∧
  encodedAs (fun op => opN3 op == 0x8 && opN op == 0xE) (fun op => .shl (opX op) (opY op)) ∧
  ∀ (x y : Reg) (s : State),
    (∃ t, exec (.shr x y) s = .next t ∧ (x ≠ regF → (t.reg x).toNat = (s.reg x).toNat / 2) ∧
      (t.reg regF).toNat = (s.reg x).toNat % 2 ∧ t.pc = s.pc + 2 ∧
      ({ regs := [x, regF] } : Touch).frame s t) ∧
    (∃ t, exec (.shl x y) s = .next t ∧ (x ≠ regF → (t.reg x).toNat = 2 * (s.reg x).toNat % 256) ∧
      (t.reg regF).toNat = (s.reg x).toNat / 128 ∧ t.pc = s.pc + 2 ∧
      ({ regs := [x, regF] } : Touch).frame s t)

/-- RND: `Vx` is the next byte of the random source, whatever it is, masked by kk, and exactly one byte is drawn
(42_alu.md R151, decision D18; log 7). -/
def Obligations.RndMasksOneDraw : Prop :=
  encodedAs (fun op => opN3 op == 0xC) (fun op => .rnd (opX op) (opKK op)) ∧
  ∀ (x : Reg) (kk : Byte) (s : State), ∃ t, exec (.rnd x kk) s = .next t ∧
    (∀ b, (t.reg x).getLsbD b = ((Config.randomByte s.draws).getLsbD b && kk.getLsbD b)) ∧
    t.draws = s.draws + 1 ∧ t.pc = s.pc + 2 ∧ ({ regs := [x], random := true } : Touch).frame s t

/-! ## Display -/

/-- R170, R173: CLS clears every pixel, adds 2 to `PC` and changes nothing else. -/
def Obligations.ClsClearsOnlyTheDisplay : Prop :=
  decodeWord 0x00E0#16 = .ok .cls ∧
  ∀ (s : State), ∃ t, exec .cls s = .next t ∧ (∀ c r, t.fb.get c r = false) ∧ t.pc = s.pc + 2 ∧
    ({ display := true } : Touch).frame s t

/-- R171: togglePixel wraps its coordinates, flips that one pixel and returns its resulting state. -/
def Obligations.TogglePixelFlipsTheWrappedCell : Prop :=
  ∀ (f : Framebuffer) (px py : Nat),
    (∀ c r, c < 64 → r < 32 → (f.togglePixel px py).1.get c r =
      (if px % 64 = c ∧ py % 32 = r then !f.get c r else f.get c r)) ∧
    (f.togglePixel px py).2 = (f.togglePixel px py).1.get px py ∧
    (f.togglePixel px py).2 = !f.get px py

/-- R172: blitSprite of at most 15 rows toggles exactly the cells the sprite's set bits cover, both coordinates wrapping,
and reports a collision exactly when one of them was lit before. -/
def Obligations.BlitTogglesExactlyTheCoveredCells : Prop :=
  ∀ (f : Framebuffer) (px py : Nat) (sprite : List Byte), sprite.length ≤ 15 →
    (∀ c r, c < 64 → r < 32 → ((blitSprite f px py sprite).1.get c r = true ↔
      ((f.get c r = true ∧ ¬ spriteCovers sprite px py c r) ∨
        (f.get c r = false ∧ spriteCovers sprite px py c r)))) ∧
    ((blitSprite f px py sprite).2 = true ↔
      ∃ c r, c < 64 ∧ r < 32 ∧ spriteCovers sprite px py c r ∧ f.get c r = true)

/-- Blitting the same sprite twice at one place restores the framebuffer, the second blit collides exactly when some
covered cell was off before the first (so, where every covered cell was off, exactly when the sprite has a set bit, as R174
says), and an all-zero sprite changes nothing and reports none (43_display.md R172, R174; log 28 for the collision of the
second blit). -/
def Obligations.BlitIsItsOwnInverse : Prop :=
  ∀ (f : Framebuffer) (px py : Nat) (sprite : List Byte), sprite.length ≤ 15 →
    (blitSprite (blitSprite f px py sprite).1 px py sprite).1 = f ∧
    ((blitSprite (blitSprite f px py sprite).1 px py sprite).2 = true ↔
      ∃ c r, c < 64 ∧ r < 32 ∧ spriteCovers sprite px py c r ∧ f.get c r = false) ∧
    ((∀ c r, c < 64 → r < 32 → spriteCovers sprite px py c r → f.get c r = false) →
      ((blitSprite (blitSprite f px py sprite).1 px py sprite).2 = true ↔ ∃ byte ∈ sprite, byte ≠ 0)) ∧
    ((∀ byte ∈ sprite, byte = 0) → blitSprite f px py sprite = (f, false))

/-- EXPECTED TO FAIL. What 43_display.md R174 derives of the second of two blits, read for every framebuffer: that it
collides exactly when the sprite has a set bit. By R172 it does not when the covered cells were all lit before the first
blit (log 28). -/
def Obligations.SecondBlitCollidesForEverySetBit : Prop :=
  ∀ (f : Framebuffer) (px py : Nat) (sprite : List Byte), sprite.length ≤ 15 →
    ((blitSprite (blitSprite f px py sprite).1 px py sprite).2 = true ↔ ∃ byte ∈ sprite, byte ≠ 0)

/-- DRW: with the sprite's bytes inside memory, the covered pixels are toggled, VF is 1 exactly on a collision and else 0,
and nothing else but `PC` changes; with bytes past 0xFFF it raises OutOfBounds(data, I) (decision D3); Dxy0 draws nothing
whatever `I` holds (43_display.md R175, R176). -/
def Obligations.DrwDrawsTheSpriteAtI : Prop :=
  encodedAs (fun op => opN3 op == 0xD) (fun op => .drw (opX op) (opY op) (opN op)) ∧
  ∀ (x y : Reg) (n : BitVec 4) (s : State),
    (n ≠ 0 → 0xFFF < s.i.toNat + n.toNat - 1 → exec (.drw x y n) s = .fault (.outOfBounds .data s.i)) ∧
    (n = 0 ∨ s.i.toNat + n.toNat - 1 ≤ 0xFFF → ∃ t, exec (.drw x y n) s = .next t ∧
      (∀ c r, c < 64 → r < 32 → (t.fb.get c r = true ↔
        ((s.fb.get c r = true ∧
            ¬ spriteCovers (s.readBytes s.i.toNat n.toNat) (s.reg x).toNat (s.reg y).toNat c r) ∨
          (s.fb.get c r = false ∧
            spriteCovers (s.readBytes s.i.toNat n.toNat) (s.reg x).toNat (s.reg y).toNat c r)))) ∧
      (t.reg regF = 1 ↔ ∃ c r, c < 64 ∧ r < 32 ∧ s.fb.get c r = true ∧
        spriteCovers (s.readBytes s.i.toNat n.toNat) (s.reg x).toNat (s.reg y).toNat c r) ∧
      (t.reg regF = 0 ∨ t.reg regF = 1) ∧
      (n = 0 → t.fb = s.fb ∧ t.reg regF = 0) ∧ t.pc = s.pc + 2 ∧
      ({ regs := [regF], display := true } : Touch).frame s t)

/-! ## Index register and memory -/

/-- LD I, nnn: with ANNN_LOADS_I it loads `I`; without it only `PC` advances, as for an unknown opcode
(44_index_memory.md R190, decision D17; log 5). -/
def Obligations.LdILoadsOnlyWithTheParameter : Prop :=
  encodedAs (fun op => opN3 op == 0xA) (fun op => .ldI (opNNN op)) ∧
  ∀ (nnn : Word) (s : State),
    (s.params.annnLoadsI = true → ∃ t, exec (.ldI nnn) s = .next t ∧ t.i = nnn ∧ t.pc = s.pc + 2 ∧
      ({ index := true } : Touch).frame s t) ∧
    (s.params.annnLoadsI = false → ∃ t, exec (.ldI nnn) s = .next t ∧ t.pc = s.pc + 2 ∧ ({} : Touch).frame s t)

/-- R191: ADD I, Vx adds modulo 65536, writes no flag, and changes only `I` and `PC`. -/
def Obligations.AddIWrapsAtSixteenBits : Prop :=
  encodedAs (fun op => opN3 op == 0xF && opKK op == 0x1E) (fun op => .addI (opX op)) ∧
  ∀ (x : Reg) (s : State), ∃ t, exec (.addI x) s = .next t ∧
    t.i.toNat = (s.i.toNat + (s.reg x).toNat) % 65536 ∧ t.pc = s.pc + 2 ∧ ({ index := true } : Touch).frame s t

/-- LD F, Vx points `I` at 0x050 + 5 * Vx, with no mask and no wrap (44_index_memory.md R192, decision D11). -/
def Obligations.LdFPointsAtTheGlyph : Prop :=
  encodedAs (fun op => opN3 op == 0xF && opKK op == 0x29) (fun op => .ldF (opX op)) ∧
  ∀ (x : Reg) (s : State), ∃ t, exec (.ldF x) s = .next t ∧
    t.i.toNat = 0x050 + 5 * (s.reg x).toNat ∧ t.pc = s.pc + 2 ∧ ({ index := true } : Touch).frame s t

/-- LD B, Vx stores hundreds, tens and ones at `I`, `I + 1`, `I + 2`, and nothing else; past 0xFFF it raises
OutOfBounds(data, I) and stores nothing (decision D3) (44_index_memory.md R193). -/
def Obligations.LdBStoresThreeDigits : Prop :=
  encodedAs (fun op => opN3 op == 0xF && opKK op == 0x33) (fun op => .ldB (opX op)) ∧
  ∀ (x : Reg) (s : State),
    (0xFFF < s.i.toNat + 2 → exec (.ldB x) s = .fault (.outOfBounds .data s.i)) ∧
    (s.i.toNat + 2 ≤ 0xFFF → ∃ t, exec (.ldB x) s = .next t ∧
      (t.readByte s.i.toNat).toNat = (s.reg x).toNat / 100 ∧
      (t.readByte (s.i.toNat + 1)).toNat = (s.reg x).toNat / 10 % 10 ∧
      (t.readByte (s.i.toNat + 2)).toNat = (s.reg x).toNat % 10 ∧ t.pc = s.pc + 2 ∧
      ({ memory := (s.i.toNat, 3) } : Touch).frame s t)

/-- LD [I], Vx stores V0..Vx, `x` included, at `I` upwards, and nothing else; `I` stays (decision D10); past 0xFFF it
raises OutOfBounds(data, I) and stores nothing (decision D3) (44_index_memory.md R194). -/
def Obligations.StRegsStoresTheRange : Prop :=
  encodedAs (fun op => opN3 op == 0xF && opKK op == 0x55) (fun op => .stRegs (opX op)) ∧
  ∀ (x : Reg) (s : State),
    (0xFFF < s.i.toNat + x.toNat → exec (.stRegs x) s = .fault (.outOfBounds .data s.i)) ∧
    (s.i.toNat + x.toNat ≤ 0xFFF → ∃ t, exec (.stRegs x) s = .next t ∧
      (∀ r : Reg, r.toNat ≤ x.toNat → t.readByte (s.i.toNat + r.toNat) = s.reg r) ∧ t.pc = s.pc + 2 ∧
      ({ memory := (s.i.toNat, x.toNat + 1) } : Touch).frame s t)

/-- LD Vx, [I] loads V0..Vx, `x` included, from `I` upwards, and nothing else; `I` stays (decision D10); past 0xFFF it
raises OutOfBounds(data, I) and loads nothing (decision D3) (44_index_memory.md R195). -/
def Obligations.LdRegsLoadsTheRange : Prop :=
  encodedAs (fun op => opN3 op == 0xF && opKK op == 0x65) (fun op => .ldRegs (opX op)) ∧
  ∀ (x : Reg) (s : State),
    (0xFFF < s.i.toNat + x.toNat → exec (.ldRegs x) s = .fault (.outOfBounds .data s.i)) ∧
    (s.i.toNat + x.toNat ≤ 0xFFF → ∃ t, exec (.ldRegs x) s = .next t ∧
      (∀ r : Reg, t.reg r = (if r.toNat ≤ x.toNat then s.readByte (s.i.toNat + r.toNat) else s.reg r)) ∧
      t.pc = s.pc + 2 ∧
      ({ regs := (List.range (x.toNat + 1)).map (BitVec.ofNat 4) } : Touch).frame s t)

/-- What LD [I], Vx stored, LD Vx, [I] loads back, whatever ran between, if memory and `I` are as the store left them
(44_index_memory.md R194, R195, decision D10). -/
def Obligations.LoadGetsBackTheStoredRegisters : Prop :=
  ∀ (x : Reg) (s u : State), s.i.toNat + x.toNat ≤ 0xFFF →
    ∃ t, exec (.stRegs x) s = .next t ∧
      (u.params = t.params → u.mem = t.mem → u.i = t.i →
        ∃ w, exec (.ldRegs x) u = .next w ∧ ∀ r : Reg, r.toNat ≤ x.toNat → w.reg r = s.reg r)

/-- A store over the next opcode is what the next fetch reads: after Fx55 and after Fx33, each of its two bytes is the
stored byte where the store reached it and the old byte where not. With `I` at the next opcode, Fx55 with x other than 0
makes it V0 and V1, and Fx33 the hundreds and the tens (20_memory.md R73). -/
def Obligations.StoredOpcodeIsFetchedNext : Prop :=
  ∀ (x : Reg) (s : State), (s.pc + 2).toNat ≤ 0xFFE →
    (s.i.toNat + x.toNat ≤ 0xFFF → ∃ t, exec (.stRegs x) s = .next t ∧
      fetch t = .ok (byteAfterStore s s.i.toNat (regRange s x) (s.pc + 2).toNat ++
        byteAfterStore s s.i.toNat (regRange s x) ((s.pc + 2).toNat + 1)) ∧
      (x ≠ 0 → s.i = s.pc + 2 → fetch t = .ok (s.reg 0x0 ++ s.reg 0x1))) ∧
    (s.i.toNat + 2 ≤ 0xFFF → ∃ t, exec (.ldB x) s = .next t ∧
      fetch t = .ok (byteAfterStore s s.i.toNat (bcdDigits (s.reg x)) (s.pc + 2).toNat ++
        byteAfterStore s s.i.toNat (bcdDigits (s.reg x)) ((s.pc + 2).toNat + 1)) ∧
      (s.i = s.pc + 2 → ∃ op, fetch t = .ok op ∧
        op.toNat = 256 * ((s.reg x).toNat / 100) + (s.reg x).toNat / 10 % 10))

/-- Two memories in canonical form that read the same at every address are the same data (log 8). -/
def Obligations.CanonicalMemoriesThatReadAlikeAreEqual : Prop :=
  ∀ (font : Config.Font) (m n : Memory), Memory.wf font m → Memory.wf font n →
    (∀ a, Memory.read font m a = Memory.read font n a) → m = n

/-! ## Timers and keys -/

/-- R214, R215, R216: Fx07 reads DT into `Vx`, Fx15 writes DT and Fx18 writes ST from `Vx`; nothing else but `PC`
changes. -/
def Obligations.TimerLoadsMoveTheByte : Prop :=
  encodedAs (fun op => opN3 op == 0xF && opKK op == 0x07) (fun op => .ldVxDT (opX op)) ∧
  encodedAs (fun op => opN3 op == 0xF && opKK op == 0x15) (fun op => .ldDT (opX op)) ∧
  encodedAs (fun op => opN3 op == 0xF && opKK op == 0x18) (fun op => .ldST (opX op)) ∧
  ∀ (x : Reg) (s : State),
    (∃ t, exec (.ldVxDT x) s = .next t ∧ t.reg x = s.dt ∧ t.pc = s.pc + 2 ∧
      ({ regs := [x] } : Touch).frame s t) ∧
    (∃ t, exec (.ldDT x) s = .next t ∧ t.dt = s.reg x ∧ t.pc = s.pc + 2 ∧
      ({ delay := true } : Touch).frame s t) ∧
    (∃ t, exec (.ldST x) s = .next t ∧ t.st = s.reg x ∧ t.pc = s.pc + 2 ∧
      ({ sound := true } : Touch).frame s t)

/-- SKP and SKNP test the flag of the key whose number is the value in `Vx`; above 0xF they raise OutOfBounds(key, Vx)
(decision D12) (45_timers_keys.md R217, R218). -/
def Obligations.KeySkipsTestTheKeyInVx : Prop :=
  encodedAs (fun op => opN3 op == 0xE && opKK op == 0x9E) (fun op => .skp (opX op)) ∧
  encodedAs (fun op => opN3 op == 0xE && opKK op == 0xA1) (fun op => .sknp (opX op)) ∧
  ∀ (x : Reg) (s : State),
    (0xF < (s.reg x).toNat →
      exec (.skp x) s = .fault (.outOfBounds .key ((s.reg x).setWidth 16)) ∧
      exec (.sknp x) s = .fault (.outOfBounds .key ((s.reg x).setWidth 16))) ∧
    (∀ k : Key, (s.reg x).toNat = k.toNat →
      (∃ t, exec (.skp x) s = .next t ∧ t.pc = (if s.keyDown k = true then s.pc + 4 else s.pc + 2) ∧
        ({} : Touch).frame s t) ∧
      (∃ t, exec (.sknp x) s = .next t ∧ t.pc = (if s.keyDown k = false then s.pc + 4 else s.pc + 2) ∧
        ({} : Touch).frame s t))

/-- LD Vx, K enters AWAIT_KEY for `Vx`, does not look at the keys, and leaves `PC` and everything else
(45_timers_keys.md R219, decision D13). -/
def Obligations.KeyWaitIsEntered : Prop :=
  encodedAs (fun op => opN3 op == 0xF && opKK op == 0x0A) (fun op => .ldVxK (opX op)) ∧
  ∀ (x : Reg) (s : State), ∃ t, exec (.ldVxK x) s = .next t ∧ t.mode = .awaitKey ∧ t.waitReg = x ∧ t.pc = s.pc ∧
    ({ wait := true } : Touch).frame s t

/-- The whole key wait: the step that executes Fx0A and every step after it return AwaitingKey and keep `PC`; then
resume(k) writes k to `Vx`, adds 2 to `PC` and makes the block READY, with nothing else changed (45_timers_keys.md R213,
R219, decision D13). -/
def Obligations.ResumeCompletesTheKeyWait : Prop :=
  ∀ (s : State) (op : Word) (x : Reg) (k : Key) (n : Nat),
    s.mode = .ready → fetch s = .ok op → decodeWord op = .ok (.ldVxK x) →
    (∀ r ∈ repliesOf (steps (n + 1)) s, r.status = some .awaitingKey) ∧
    (runCommands (steps (n + 1)) s).mode = .awaitKey ∧
    (runCommands (steps (n + 1)) s).pc = s.pc ∧
    (runCommands (stepsThenResume (n + 1) k) s).mode = .ready ∧
    (runCommands (stepsThenResume (n + 1) k) s).pc = s.pc + 2 ∧
    ((runCommands (stepsThenResume (n + 1) k) s).reg x).toNat = k.toNat ∧
    ({ regs := [x], wait := true } : Touch).frame s (runCommands (stepsThenResume (n + 1) k) s)

/-- resume(k) while AWAIT_KEY writes k to the waiting register, adds 2 to `PC` and makes the block READY; while READY it
changes nothing (decision D14); it never writes a key flag (decision D24) (45_timers_keys.md R213). -/
def Obligations.ResumeActsOnlyWhileAwaiting : Prop :=
  ∀ (s : State) (k : Key),
    (s.mode = .ready → (command (.resume k) s).1 = s) ∧
    (s.mode = .awaitKey →
      ((command (.resume k) s).1.reg s.waitReg).toNat = k.toNat ∧
      (command (.resume k) s).1.pc = s.pc + 2 ∧ (command (.resume k) s).1.mode = .ready ∧
      (command (.resume k) s).1.waitReg = s.waitReg ∧
      ({ regs := [s.waitReg], wait := true } : Touch).frame s (command (.resume k) s).1)

/-- R212: setKeyState writes its one key flag and nothing else. -/
def Obligations.SetKeyStateWritesOneFlag : Prop :=
  ∀ (s : State) (k : Key) (p : Bool),
    (∀ q, (command (.setKeyState k p) s).1.keyDown q = (if k = q then p else s.keyDown q)) ∧
    (command (.setKeyState k p) s).1 = { s with key := (command (.setKeyState k p) s).1.key } ∧
    (command (.setKeyState k p) s).2.status = some .ok

/-- tick takes 1 from each timer that is above 0, each by its own test, and changes nothing else, in both modes
(45_timers_keys.md R210, decision D23). -/
def Obligations.TickCountsBothTimersDown : Prop :=
  ∀ (s : State),
    (command .tick s).1.dt.toNat = s.dt.toNat - 1 ∧ (command .tick s).1.st.toNat = s.st.toNat - 1 ∧
    (command .tick s).1 = { s with dt := (command .tick s).1.dt, st := (command .tick s).1.st } ∧
    (command .tick s).2.status = some .ok

/-- Over every sequence of commands, steps included, in which none but the ticks writes a timer (no reset, and no step
that executes Fx15 for DT or Fx18 for ST), that timer is what it was less the number of ticks, and stays at 0
(45_timers_keys.md R211). -/
def Obligations.TimersAreLessTheTicks : Prop :=
  ∀ (cs : List Command) (s : State),
    (alongRun writesNoDelay cs s = true → (runCommands cs s).dt.toNat = s.dt.toNat - tickCount cs) ∧
    (alongRun writesNoSound cs s = true → (runCommands cs s).st.toNat = s.st.toNat - tickCount cs)

/-- The wait state is entered only by a step that executes Fx0A, and left only by resume or reset (60_exceptions.md R247,
10_state.md R31). -/
def Obligations.WaitIsEnteredByFx0AAndLeftByResumeOrReset : Prop :=
  ∀ (c : Command) (s : State),
    (s.mode = .awaitKey → (command c s).1.mode = .ready → c = .reset ∨ ∃ k, c = .resume k) ∧
    (s.mode = .ready → (command c s).1.mode = .awaitKey →
      c = .step ∧ ∃ op x, fetch s = .ok op ∧ decodeWord op = .ok (.ldVxK x))

/-! ## Conditions, statuses, reset and load -/

/-- A command that answers a fatal status leaves the whole state as it was (60_exceptions.md R232, decision D32). -/
def Obligations.FatalConditionsChangeNothing : Prop :=
  ∀ (c : Command) (s : State) (st : Status),
    (command c s).2.status = some st → st.fatal = true → (command c s).1 = s

/-- Every step returns a status and an event that holds it. The status is fatal exactly when the step of the machine
faults, with that condition; a fetched step's event holds the opcode and its fields; a completed instruction reports OK,
but for Fx0A, which reports AwaitingKey, and for Annn without ANNN_LOADS_I, which reports UnknownOpcode as an opcode that
decodes to none does (40_step.md R108, R109, 60_exceptions.md R230, R238, decisions D17, D29, D33; log 2, 5). -/
def Obligations.StepReportsItsStatusAndEvent : Prop :=
  ∀ (s : State), ∃ st, (command .step s).2.status = some st ∧
    (∃ e, (command .step s).2.event = some e ∧ e.status = some st) ∧
    (∀ f, step s = .fault f → st = faultStatus f ∧ st.fatal = true) ∧
    (∀ t, step s = .next t → st.fatal = false ∧ (command .step s).1 = t) ∧
    (∀ op, s.mode = .ready → fetch s = .ok op →
      (command .step s).2.event = some
        ⟨some op, some { x := opX op, y := opY op, n := opN op, kk := opKK op, nnn := opNNN op }, some st⟩ ∧
      (∀ i t, decodeWord op = .ok i → exec i s = .next t →
        ((∀ x, i ≠ .ldVxK x) → (s.params.annnLoadsI = true ∨ ∀ nnn, i ≠ .ldI nnn) → st = .ok) ∧
        ((∃ x, i = .ldVxK x) → st = .awaitingKey) ∧
        (s.params.annnLoadsI = false → (∃ nnn, i = .ldI nnn) → st = .unknownOpcode op)) ∧
      (∀ e, decodeWord op = .error e → st = .unknownOpcode op))

/-- R231: loadProgram raises ProgramTooLarge, recording the length, exactly when the program is longer than 3584 bytes,
and then nothing is written. -/
def Obligations.ProgramTooLargeWritesNothing : Prop :=
  ∀ (bytes : List Byte) (s : State),
    ((command (.loadProgram bytes) s).2.status = some (.programTooLarge bytes.length) ↔ 3584 < bytes.length) ∧
    (3584 < bytes.length → (command (.loadProgram bytes) s).1 = s)

/-- loadProgram of at most 3584 bytes copies them to 0x200 upwards and writes nothing else, in any mode (decision D27)
(20_memory.md R70). -/
def Obligations.LoadProgramCopiesTheBytes : Prop :=
  ∀ (bytes : List Byte) (s : State), bytes.length ≤ 3584 →
    (command (.loadProgram bytes) s).2.status = some .ok ∧
    (∀ j, j < bytes.length → (command (.loadProgram bytes) s).1.readByte (0x200 + j) = bytes.getD j 0) ∧
    (command (.loadProgram bytes) s).1.pc = s.pc ∧
    ({ memory := (0x200, bytes.length) } : Touch).frame s (command (.loadProgram bytes) s).1

/-- reset, in any state: memory 0 but for FONT at 0x050, so that no program byte remains, registers, timers and stack 0,
`PC` 0x200, the framebuffer clear; and by decision D15 `I`, the keys, MODE and WAITREG at 0 and READY
(70_reset_and_hazards.md R260). -/
def Obligations.ResetGivesTheResetState : Prop :=
  ∀ (s : State),
    (∀ g : Fin 80, (command .reset s).1.readByte (0x050 + g.val) = s.params.font[g]) ∧
    (∀ a, a < 0x050 ∨ 0x0A0 ≤ a → (command .reset s).1.readByte a = 0) ∧
    (∀ r, (command .reset s).1.reg r = 0) ∧ (command .reset s).1.dt = 0 ∧ (command .reset s).1.st = 0 ∧
    (command .reset s).1.sp = 0 ∧ (command .reset s).1.stack = List.replicate s.params.stackDepth 0 ∧
    (command .reset s).1.pc = 0x200 ∧ (∀ c r, (command .reset s).1.fb.get c r = false) ∧
    (command .reset s).1.i = 0 ∧ (∀ k, (command .reset s).1.keyDown k = false) ∧
    (command .reset s).1.mode = .ready ∧ (command .reset s).1.waitReg = 0 ∧
    (command .reset s).2.status = some .ok

/-! ## Whole-machine rules -/

/-- VF changes only by the flag writers 8xy4, 8xy5, 8xy6, 8xy7, 8xyE and Dxyn, and by an instruction that names it as its
register operand (10_state.md R21). -/
def Obligations.VFChangesOnlyByItsWriters : Prop :=
  ∀ (i : Instr) (s t : State), exec i s = .next t → t.reg regF ≠ s.reg regF →
    (∃ x y, i = .addReg x y ∨ i = .subReg x y ∨ i = .shr x y ∨ i = .subn x y ∨ i = .shl x y) ∨
    (∃ x y n, i = .drw x y n) ∨
    (∃ kk, i = .ldImm regF kk ∨ i = .addImm regF kk ∨ i = .rnd regF kk) ∨
    (∃ y, i = .ldReg regF y ∨ i = .orReg regF y ∨ i = .andReg regF y ∨ i = .xorReg regF y) ∨
    i = .ldVxDT regF ∨ i = .ldRegs regF

/-- No instruction writes a key flag or a parameter; memory is written only by Fx33 and Fx55, the framebuffer only by 00E0
and Dxyn, `I` only by Annn, Fx1E and Fx29, the stack only by 2nnn and 00EE, DT only by Fx15, ST only by Fx18, MODE only by
Fx0A, and only Cxkk draws (10_state.md R23, R24, R28-R31, 20_memory.md R65). -/
def Obligations.EachElementHasOnlyItsNamedWriters : Prop :=
  ∀ (i : Instr) (s t : State), exec i s = .next t →
    t.key = s.key ∧ t.params = s.params ∧
    (t.mem ≠ s.mem → ∃ x, i = .ldB x ∨ i = .stRegs x) ∧
    (t.fb ≠ s.fb → i = .cls ∨ ∃ x y n, i = .drw x y n) ∧
    (t.i ≠ s.i → (∃ nnn, i = .ldI nnn) ∨ ∃ x, i = .addI x ∨ i = .ldF x) ∧
    (t.stack ≠ s.stack → ∃ nnn, i = .call nnn) ∧
    (t.sp ≠ s.sp → (∃ nnn, i = .call nnn) ∨ i = .ret) ∧
    (t.dt ≠ s.dt → ∃ x, i = .ldDT x) ∧
    (t.st ≠ s.st → ∃ x, i = .ldST x) ∧
    (t.mode ≠ s.mode ∨ t.waitReg ≠ s.waitReg → ∃ x, i = .ldVxK x) ∧
    (t.draws ≠ s.draws → ∃ x kk, i = .rnd x kk)

/-- The key flags reach a program only through Ex9E and ExA1: every other instruction does the same whatever they are, and
Cxkk does so for the same drawn byte (40_step.md R111; log 7: both runs draw from the same count) (60_exceptions.md R241,
10_state.md R29). -/
def Obligations.KeysReachOnlyTheKeySkips : Prop :=
  ∀ (i : Instr) (s : State) (keys : Vector Bool 16), (∀ x, i ≠ .skp x ∧ i ≠ .sknp x) →
    exec i { s with key := keys } = mapNext (fun t => { t with key := keys }) (exec i s)

/-- The sound timer reaches no program: every instruction does the same whatever it is, Cxkk for the same drawn byte
(40_step.md R111; log 7: both runs draw from the same count), and Fx18 overwrites it (10_state.md R28). -/
def Obligations.SoundTimerReachesNoInstruction : Prop :=
  ∀ (i : Instr) (s : State) (b : Byte),
    ((∀ x, i ≠ .ldST x) → exec i { s with st := b } = mapNext (fun t => { t with st := b }) (exec i s)) ∧
    (∀ x, exec (.ldST x) { s with st := b } = exec (.ldST x) s)

/-- No command changes the parameters (00_scope.md R6, 30_encoding.md R92; log 3). -/
def Obligations.ParametersAreFixedForAMachine : Prop :=
  ∀ (cs : List Command) (s : State), (runCommands cs s).params = s.params

/-- The invariant holds after reset, for every STACK_DEPTH of at least 1 and every FONT, and of the reset state of this
model (10_state.md R24, R26, R27, 70_reset_and_hazards.md R260). -/
def Obligations.StateInvHoldsAfterReset : Prop :=
  StateInv State.reset ∧ ∀ (p : Config.Params) (d : Nat), p.wf → StateInv (State.afterReset p d)

/-- Every step keeps the invariant, from every state that has it (10_state.md R24, 20_memory.md R64). -/
def Obligations.EveryStepKeepsStateInv : Prop :=
  ∀ (s t : State), StateInv s → step s = .next t → StateInv t

/-- Every sequence of the host's commands keeps the invariant, from every state that has it (40_step.md R101). -/
def Obligations.EveryCommandSequenceKeepsStateInv : Prop :=
  ∀ (cs : List Command) (s : State), StateInv s → StateInv (runCommands cs s)
end

