-- ==== Sys2Proof/Laws/Decode.lean ====
section
/-! SUPPORT. The fields of an encoded opcode are the operands put in, and an opcode is its fields put together. -/

namespace Sys2Proof

@[simp] theorem opN3_encodeXKK (a x : BitVec 4) (kk : Byte) : opN3 (encodeXKK a x kk) = a := by
  unfold opN3 encodeXKK; ext i hi; simp; grind

@[simp] theorem opX_encodeXKK (a x : BitVec 4) (kk : Byte) : opX (encodeXKK a x kk) = x := by
  unfold opX encodeXKK; ext i hi; simp; grind

@[simp] theorem opKK_encodeXKK (a x : BitVec 4) (kk : Byte) : opKK (encodeXKK a x kk) = kk := by
  unfold opKK encodeXKK; ext i hi; simp; grind

@[simp] theorem opN3_encodeXYN (a x y n : BitVec 4) : opN3 (encodeXYN a x y n) = a := by
  unfold opN3 encodeXYN; ext i hi; simp; grind

@[simp] theorem opX_encodeXYN (a x y n : BitVec 4) : opX (encodeXYN a x y n) = x := by
  unfold opX encodeXYN; ext i hi; simp; grind

@[simp] theorem opY_encodeXYN (a x y n : BitVec 4) : opY (encodeXYN a x y n) = y := by
  unfold opY encodeXYN; ext i hi; simp; grind

@[simp] theorem opN_encodeXYN (a x y n : BitVec 4) : opN (encodeXYN a x y n) = n := by
  unfold opN encodeXYN; ext i hi; simp; grind

@[simp] theorem opN3_encodeNNN (a : BitVec 4) (nnn : Word) : opN3 (encodeNNN a nnn) = a := by
  unfold opN3 encodeNNN; ext i hi; simp; grind

/-- The address operand comes back when it fits its 12 bits. -/
theorem opNNN_encodeNNN (a : BitVec 4) (nnn : Word) (h : addressFits nnn = true) :
    opNNN (encodeNNN a nnn) = nnn := by
  have h' : nnn.toNat < 4096 := by simpa [addressFits] using h
  have e : (encodeNNN a nnn).extractLsb' 0 12 = nnn.setWidth 12 := by
    unfold encodeNNN; ext i hi; simp; grind
  unfold opNNN
  rw [e]
  apply BitVec.eq_of_toNat_eq
  simp only [BitVec.toNat_setWidth]
  omega

/-- The address field always fits. -/
theorem addressFits_opNNN (op : Word) : addressFits (opNNN op) = true := by
  have h := (op.extractLsb' 0 12).isLt
  simp only [addressFits, opNNN, BitVec.toNat_setWidth, decide_eq_true_eq]
  omega

theorem encodeXKK_fields (op : Word) : encodeXKK (opN3 op) (opX op) (opKK op) = op := by
  unfold encodeXKK opN3 opX opKK; ext i hi; simp; grind

theorem encodeXYN_fields (op : Word) : encodeXYN (opN3 op) (opX op) (opY op) (opN op) = op := by
  unfold encodeXYN opN3 opX opY opN; ext i hi; simp; grind

theorem encodeNNN_fields (op : Word) : encodeNNN (opN3 op) (opNNN op) = op := by
  unfold encodeNNN opN3 opNNN; ext i hi; simp; grind

/-- The two stored bytes of a word, put together as the fetch does, are the word. -/
theorem wordBytes_append (op : Word) :
    (op.extractLsb' 8 8 ++ op.extractLsb' 0 8 : Word) = op := by
  ext i hi; simp; grind

/-- The byte decoder reads the high byte first, and takes two bytes. -/
theorem decode_wordBytes (op : Word) (rest : List Byte) :
    decode (wordBytes op ++ rest) =
      (match decodeWord op with
        | .ok i => .ok (i, rest)
        | .error e => .error e) := by
  have e : (op.extractLsb' 8 8 ++ op.extractLsb' 0 8 : Word) = op := wordBytes_append op
  cases h : decodeWord op <;> simp only [wordBytes, List.cons_append, List.nil_append, decode, e, h]

end Sys2Proof
end

