-- ==== Sys2Proof/Laws/State.lean ====
section
/-! SUPPORT. One lemma per field per update of the state, each true by rfl. -/

namespace Sys2Proof.Machine

variable (s : State)

/-! ### setReg -/

@[simp] theorem State.setReg_params (x : Reg) (b : Byte) : (s.setReg x b).params = s.params := rfl
@[simp] theorem State.setReg_v (x : Reg) (b : Byte) : (s.setReg x b).v = s.v.set x.toNat b x.isLt := rfl
@[simp] theorem State.setReg_i (x : Reg) (b : Byte) : (s.setReg x b).i = s.i := rfl
@[simp] theorem State.setReg_pc (x : Reg) (b : Byte) : (s.setReg x b).pc = s.pc := rfl
@[simp] theorem State.setReg_sp (x : Reg) (b : Byte) : (s.setReg x b).sp = s.sp := rfl
@[simp] theorem State.setReg_stack (x : Reg) (b : Byte) : (s.setReg x b).stack = s.stack := rfl
@[simp] theorem State.setReg_mem (x : Reg) (b : Byte) : (s.setReg x b).mem = s.mem := rfl
@[simp] theorem State.setReg_dt (x : Reg) (b : Byte) : (s.setReg x b).dt = s.dt := rfl
@[simp] theorem State.setReg_st (x : Reg) (b : Byte) : (s.setReg x b).st = s.st := rfl
@[simp] theorem State.setReg_key (x : Reg) (b : Byte) : (s.setReg x b).key = s.key := rfl
@[simp] theorem State.setReg_fb (x : Reg) (b : Byte) : (s.setReg x b).fb = s.fb := rfl
@[simp] theorem State.setReg_mode (x : Reg) (b : Byte) : (s.setReg x b).mode = s.mode := rfl
@[simp] theorem State.setReg_waitReg (x : Reg) (b : Byte) : (s.setReg x b).waitReg = s.waitReg := rfl
@[simp] theorem State.setReg_draws (x : Reg) (b : Byte) : (s.setReg x b).draws = s.draws := rfl

/-! ### setIndex -/

@[simp] theorem State.setIndex_params (a : Word) : (s.setIndex a).params = s.params := rfl
@[simp] theorem State.setIndex_v (a : Word) : (s.setIndex a).v = s.v := rfl
@[simp] theorem State.setIndex_i (a : Word) : (s.setIndex a).i = a := rfl
@[simp] theorem State.setIndex_pc (a : Word) : (s.setIndex a).pc = s.pc := rfl
@[simp] theorem State.setIndex_sp (a : Word) : (s.setIndex a).sp = s.sp := rfl
@[simp] theorem State.setIndex_stack (a : Word) : (s.setIndex a).stack = s.stack := rfl
@[simp] theorem State.setIndex_mem (a : Word) : (s.setIndex a).mem = s.mem := rfl
@[simp] theorem State.setIndex_dt (a : Word) : (s.setIndex a).dt = s.dt := rfl
@[simp] theorem State.setIndex_st (a : Word) : (s.setIndex a).st = s.st := rfl
@[simp] theorem State.setIndex_key (a : Word) : (s.setIndex a).key = s.key := rfl
@[simp] theorem State.setIndex_fb (a : Word) : (s.setIndex a).fb = s.fb := rfl
@[simp] theorem State.setIndex_mode (a : Word) : (s.setIndex a).mode = s.mode := rfl
@[simp] theorem State.setIndex_waitReg (a : Word) : (s.setIndex a).waitReg = s.waitReg := rfl
@[simp] theorem State.setIndex_draws (a : Word) : (s.setIndex a).draws = s.draws := rfl

/-! ### setPc -/

@[simp] theorem State.setPc_params (a : Word) : (s.setPc a).params = s.params := rfl
@[simp] theorem State.setPc_v (a : Word) : (s.setPc a).v = s.v := rfl
@[simp] theorem State.setPc_i (a : Word) : (s.setPc a).i = s.i := rfl
@[simp] theorem State.setPc_pc (a : Word) : (s.setPc a).pc = a := rfl
@[simp] theorem State.setPc_sp (a : Word) : (s.setPc a).sp = s.sp := rfl
@[simp] theorem State.setPc_stack (a : Word) : (s.setPc a).stack = s.stack := rfl
@[simp] theorem State.setPc_mem (a : Word) : (s.setPc a).mem = s.mem := rfl
@[simp] theorem State.setPc_dt (a : Word) : (s.setPc a).dt = s.dt := rfl
@[simp] theorem State.setPc_st (a : Word) : (s.setPc a).st = s.st := rfl
@[simp] theorem State.setPc_key (a : Word) : (s.setPc a).key = s.key := rfl
@[simp] theorem State.setPc_fb (a : Word) : (s.setPc a).fb = s.fb := rfl
@[simp] theorem State.setPc_mode (a : Word) : (s.setPc a).mode = s.mode := rfl
@[simp] theorem State.setPc_waitReg (a : Word) : (s.setPc a).waitReg = s.waitReg := rfl
@[simp] theorem State.setPc_draws (a : Word) : (s.setPc a).draws = s.draws := rfl

/-! ### advance -/

@[simp] theorem State.advance_params : (s.advance).params = s.params := rfl
@[simp] theorem State.advance_v : (s.advance).v = s.v := rfl
@[simp] theorem State.advance_i : (s.advance).i = s.i := rfl
@[simp] theorem State.advance_pc : (s.advance).pc = s.pc + 2 := rfl
@[simp] theorem State.advance_sp : (s.advance).sp = s.sp := rfl
@[simp] theorem State.advance_stack : (s.advance).stack = s.stack := rfl
@[simp] theorem State.advance_mem : (s.advance).mem = s.mem := rfl
@[simp] theorem State.advance_dt : (s.advance).dt = s.dt := rfl
@[simp] theorem State.advance_st : (s.advance).st = s.st := rfl
@[simp] theorem State.advance_key : (s.advance).key = s.key := rfl
@[simp] theorem State.advance_fb : (s.advance).fb = s.fb := rfl
@[simp] theorem State.advance_mode : (s.advance).mode = s.mode := rfl
@[simp] theorem State.advance_waitReg : (s.advance).waitReg = s.waitReg := rfl
@[simp] theorem State.advance_draws : (s.advance).draws = s.draws := rfl

/-! ### skipIf -/

@[simp] theorem State.skipIf_params (c : Bool) : (s.skipIf c).params = s.params := rfl
@[simp] theorem State.skipIf_v (c : Bool) : (s.skipIf c).v = s.v := rfl
@[simp] theorem State.skipIf_i (c : Bool) : (s.skipIf c).i = s.i := rfl
@[simp] theorem State.skipIf_pc (c : Bool) : (s.skipIf c).pc = if c then s.pc + 4 else s.pc + 2 := rfl
@[simp] theorem State.skipIf_sp (c : Bool) : (s.skipIf c).sp = s.sp := rfl
@[simp] theorem State.skipIf_stack (c : Bool) : (s.skipIf c).stack = s.stack := rfl
@[simp] theorem State.skipIf_mem (c : Bool) : (s.skipIf c).mem = s.mem := rfl
@[simp] theorem State.skipIf_dt (c : Bool) : (s.skipIf c).dt = s.dt := rfl
@[simp] theorem State.skipIf_st (c : Bool) : (s.skipIf c).st = s.st := rfl
@[simp] theorem State.skipIf_key (c : Bool) : (s.skipIf c).key = s.key := rfl
@[simp] theorem State.skipIf_fb (c : Bool) : (s.skipIf c).fb = s.fb := rfl
@[simp] theorem State.skipIf_mode (c : Bool) : (s.skipIf c).mode = s.mode := rfl
@[simp] theorem State.skipIf_waitReg (c : Bool) : (s.skipIf c).waitReg = s.waitReg := rfl
@[simp] theorem State.skipIf_draws (c : Bool) : (s.skipIf c).draws = s.draws := rfl

/-! ### push -/

@[simp] theorem State.push_params (a : Word) : (s.push a).params = s.params := rfl
@[simp] theorem State.push_v (a : Word) : (s.push a).v = s.v := rfl
@[simp] theorem State.push_i (a : Word) : (s.push a).i = s.i := rfl
@[simp] theorem State.push_pc (a : Word) : (s.push a).pc = s.pc := rfl
@[simp] theorem State.push_sp (a : Word) : (s.push a).sp = s.sp + 1 := rfl
@[simp] theorem State.push_stack (a : Word) : (s.push a).stack = s.stack.set s.sp a := rfl
@[simp] theorem State.push_mem (a : Word) : (s.push a).mem = s.mem := rfl
@[simp] theorem State.push_dt (a : Word) : (s.push a).dt = s.dt := rfl
@[simp] theorem State.push_st (a : Word) : (s.push a).st = s.st := rfl
@[simp] theorem State.push_key (a : Word) : (s.push a).key = s.key := rfl
@[simp] theorem State.push_fb (a : Word) : (s.push a).fb = s.fb := rfl
@[simp] theorem State.push_mode (a : Word) : (s.push a).mode = s.mode := rfl
@[simp] theorem State.push_waitReg (a : Word) : (s.push a).waitReg = s.waitReg := rfl
@[simp] theorem State.push_draws (a : Word) : (s.push a).draws = s.draws := rfl

/-! ### pop -/

@[simp] theorem State.pop_params : (s.pop).params = s.params := rfl
@[simp] theorem State.pop_v : (s.pop).v = s.v := rfl
@[simp] theorem State.pop_i : (s.pop).i = s.i := rfl
@[simp] theorem State.pop_pc : (s.pop).pc = s.pc := rfl
@[simp] theorem State.pop_sp : (s.pop).sp = s.sp - 1 := rfl
@[simp] theorem State.pop_stack : (s.pop).stack = s.stack := rfl
@[simp] theorem State.pop_mem : (s.pop).mem = s.mem := rfl
@[simp] theorem State.pop_dt : (s.pop).dt = s.dt := rfl
@[simp] theorem State.pop_st : (s.pop).st = s.st := rfl
@[simp] theorem State.pop_key : (s.pop).key = s.key := rfl
@[simp] theorem State.pop_fb : (s.pop).fb = s.fb := rfl
@[simp] theorem State.pop_mode : (s.pop).mode = s.mode := rfl
@[simp] theorem State.pop_waitReg : (s.pop).waitReg = s.waitReg := rfl
@[simp] theorem State.pop_draws : (s.pop).draws = s.draws := rfl

/-! ### setDelay -/

@[simp] theorem State.setDelay_params (b : Byte) : (s.setDelay b).params = s.params := rfl
@[simp] theorem State.setDelay_v (b : Byte) : (s.setDelay b).v = s.v := rfl
@[simp] theorem State.setDelay_i (b : Byte) : (s.setDelay b).i = s.i := rfl
@[simp] theorem State.setDelay_pc (b : Byte) : (s.setDelay b).pc = s.pc := rfl
@[simp] theorem State.setDelay_sp (b : Byte) : (s.setDelay b).sp = s.sp := rfl
@[simp] theorem State.setDelay_stack (b : Byte) : (s.setDelay b).stack = s.stack := rfl
@[simp] theorem State.setDelay_mem (b : Byte) : (s.setDelay b).mem = s.mem := rfl
@[simp] theorem State.setDelay_dt (b : Byte) : (s.setDelay b).dt = b := rfl
@[simp] theorem State.setDelay_st (b : Byte) : (s.setDelay b).st = s.st := rfl
@[simp] theorem State.setDelay_key (b : Byte) : (s.setDelay b).key = s.key := rfl
@[simp] theorem State.setDelay_fb (b : Byte) : (s.setDelay b).fb = s.fb := rfl
@[simp] theorem State.setDelay_mode (b : Byte) : (s.setDelay b).mode = s.mode := rfl
@[simp] theorem State.setDelay_waitReg (b : Byte) : (s.setDelay b).waitReg = s.waitReg := rfl
@[simp] theorem State.setDelay_draws (b : Byte) : (s.setDelay b).draws = s.draws := rfl

/-! ### setSound -/

@[simp] theorem State.setSound_params (b : Byte) : (s.setSound b).params = s.params := rfl
@[simp] theorem State.setSound_v (b : Byte) : (s.setSound b).v = s.v := rfl
@[simp] theorem State.setSound_i (b : Byte) : (s.setSound b).i = s.i := rfl
@[simp] theorem State.setSound_pc (b : Byte) : (s.setSound b).pc = s.pc := rfl
@[simp] theorem State.setSound_sp (b : Byte) : (s.setSound b).sp = s.sp := rfl
@[simp] theorem State.setSound_stack (b : Byte) : (s.setSound b).stack = s.stack := rfl
@[simp] theorem State.setSound_mem (b : Byte) : (s.setSound b).mem = s.mem := rfl
@[simp] theorem State.setSound_dt (b : Byte) : (s.setSound b).dt = s.dt := rfl
@[simp] theorem State.setSound_st (b : Byte) : (s.setSound b).st = b := rfl
@[simp] theorem State.setSound_key (b : Byte) : (s.setSound b).key = s.key := rfl
@[simp] theorem State.setSound_fb (b : Byte) : (s.setSound b).fb = s.fb := rfl
@[simp] theorem State.setSound_mode (b : Byte) : (s.setSound b).mode = s.mode := rfl
@[simp] theorem State.setSound_waitReg (b : Byte) : (s.setSound b).waitReg = s.waitReg := rfl
@[simp] theorem State.setSound_draws (b : Byte) : (s.setSound b).draws = s.draws := rfl

/-! ### setFb -/

@[simp] theorem State.setFb_params (f : Framebuffer) : (s.setFb f).params = s.params := rfl
@[simp] theorem State.setFb_v (f : Framebuffer) : (s.setFb f).v = s.v := rfl
@[simp] theorem State.setFb_i (f : Framebuffer) : (s.setFb f).i = s.i := rfl
@[simp] theorem State.setFb_pc (f : Framebuffer) : (s.setFb f).pc = s.pc := rfl
@[simp] theorem State.setFb_sp (f : Framebuffer) : (s.setFb f).sp = s.sp := rfl
@[simp] theorem State.setFb_stack (f : Framebuffer) : (s.setFb f).stack = s.stack := rfl
@[simp] theorem State.setFb_mem (f : Framebuffer) : (s.setFb f).mem = s.mem := rfl
@[simp] theorem State.setFb_dt (f : Framebuffer) : (s.setFb f).dt = s.dt := rfl
@[simp] theorem State.setFb_st (f : Framebuffer) : (s.setFb f).st = s.st := rfl
@[simp] theorem State.setFb_key (f : Framebuffer) : (s.setFb f).key = s.key := rfl
@[simp] theorem State.setFb_fb (f : Framebuffer) : (s.setFb f).fb = f := rfl
@[simp] theorem State.setFb_mode (f : Framebuffer) : (s.setFb f).mode = s.mode := rfl
@[simp] theorem State.setFb_waitReg (f : Framebuffer) : (s.setFb f).waitReg = s.waitReg := rfl
@[simp] theorem State.setFb_draws (f : Framebuffer) : (s.setFb f).draws = s.draws := rfl

/-! ### setKey -/

@[simp] theorem State.setKey_params (k : Key) (p : Bool) : (s.setKey k p).params = s.params := rfl
@[simp] theorem State.setKey_v (k : Key) (p : Bool) : (s.setKey k p).v = s.v := rfl
@[simp] theorem State.setKey_i (k : Key) (p : Bool) : (s.setKey k p).i = s.i := rfl
@[simp] theorem State.setKey_pc (k : Key) (p : Bool) : (s.setKey k p).pc = s.pc := rfl
@[simp] theorem State.setKey_sp (k : Key) (p : Bool) : (s.setKey k p).sp = s.sp := rfl
@[simp] theorem State.setKey_stack (k : Key) (p : Bool) : (s.setKey k p).stack = s.stack := rfl
@[simp] theorem State.setKey_mem (k : Key) (p : Bool) : (s.setKey k p).mem = s.mem := rfl
@[simp] theorem State.setKey_dt (k : Key) (p : Bool) : (s.setKey k p).dt = s.dt := rfl
@[simp] theorem State.setKey_st (k : Key) (p : Bool) : (s.setKey k p).st = s.st := rfl
@[simp] theorem State.setKey_key (k : Key) (p : Bool) : (s.setKey k p).key = s.key.set k.toNat p k.isLt := rfl
@[simp] theorem State.setKey_fb (k : Key) (p : Bool) : (s.setKey k p).fb = s.fb := rfl
@[simp] theorem State.setKey_mode (k : Key) (p : Bool) : (s.setKey k p).mode = s.mode := rfl
@[simp] theorem State.setKey_waitReg (k : Key) (p : Bool) : (s.setKey k p).waitReg = s.waitReg := rfl
@[simp] theorem State.setKey_draws (k : Key) (p : Bool) : (s.setKey k p).draws = s.draws := rfl

/-! ### awaitKey -/

@[simp] theorem State.awaitKey_params (x : Reg) : (s.awaitKey x).params = s.params := rfl
@[simp] theorem State.awaitKey_v (x : Reg) : (s.awaitKey x).v = s.v := rfl
@[simp] theorem State.awaitKey_i (x : Reg) : (s.awaitKey x).i = s.i := rfl
@[simp] theorem State.awaitKey_pc (x : Reg) : (s.awaitKey x).pc = s.pc := rfl
@[simp] theorem State.awaitKey_sp (x : Reg) : (s.awaitKey x).sp = s.sp := rfl
@[simp] theorem State.awaitKey_stack (x : Reg) : (s.awaitKey x).stack = s.stack := rfl
@[simp] theorem State.awaitKey_mem (x : Reg) : (s.awaitKey x).mem = s.mem := rfl
@[simp] theorem State.awaitKey_dt (x : Reg) : (s.awaitKey x).dt = s.dt := rfl
@[simp] theorem State.awaitKey_st (x : Reg) : (s.awaitKey x).st = s.st := rfl
@[simp] theorem State.awaitKey_key (x : Reg) : (s.awaitKey x).key = s.key := rfl
@[simp] theorem State.awaitKey_fb (x : Reg) : (s.awaitKey x).fb = s.fb := rfl
@[simp] theorem State.awaitKey_mode (x : Reg) : (s.awaitKey x).mode = .awaitKey := rfl
@[simp] theorem State.awaitKey_waitReg (x : Reg) : (s.awaitKey x).waitReg = x := rfl
@[simp] theorem State.awaitKey_draws (x : Reg) : (s.awaitKey x).draws = s.draws := rfl

/-! ### setReady -/

@[simp] theorem State.setReady_params : (s.setReady).params = s.params := rfl
@[simp] theorem State.setReady_v : (s.setReady).v = s.v := rfl
@[simp] theorem State.setReady_i : (s.setReady).i = s.i := rfl
@[simp] theorem State.setReady_pc : (s.setReady).pc = s.pc := rfl
@[simp] theorem State.setReady_sp : (s.setReady).sp = s.sp := rfl
@[simp] theorem State.setReady_stack : (s.setReady).stack = s.stack := rfl
@[simp] theorem State.setReady_mem : (s.setReady).mem = s.mem := rfl
@[simp] theorem State.setReady_dt : (s.setReady).dt = s.dt := rfl
@[simp] theorem State.setReady_st : (s.setReady).st = s.st := rfl
@[simp] theorem State.setReady_key : (s.setReady).key = s.key := rfl
@[simp] theorem State.setReady_fb : (s.setReady).fb = s.fb := rfl
@[simp] theorem State.setReady_mode : (s.setReady).mode = .ready := rfl
@[simp] theorem State.setReady_waitReg : (s.setReady).waitReg = s.waitReg := rfl
@[simp] theorem State.setReady_draws : (s.setReady).draws = s.draws := rfl

/-! ### drawn -/

@[simp] theorem State.drawn_params : (s.drawn).params = s.params := rfl
@[simp] theorem State.drawn_v : (s.drawn).v = s.v := rfl
@[simp] theorem State.drawn_i : (s.drawn).i = s.i := rfl
@[simp] theorem State.drawn_pc : (s.drawn).pc = s.pc := rfl
@[simp] theorem State.drawn_sp : (s.drawn).sp = s.sp := rfl
@[simp] theorem State.drawn_stack : (s.drawn).stack = s.stack := rfl
@[simp] theorem State.drawn_mem : (s.drawn).mem = s.mem := rfl
@[simp] theorem State.drawn_dt : (s.drawn).dt = s.dt := rfl
@[simp] theorem State.drawn_st : (s.drawn).st = s.st := rfl
@[simp] theorem State.drawn_key : (s.drawn).key = s.key := rfl
@[simp] theorem State.drawn_fb : (s.drawn).fb = s.fb := rfl
@[simp] theorem State.drawn_mode : (s.drawn).mode = s.mode := rfl
@[simp] theorem State.drawn_waitReg : (s.drawn).waitReg = s.waitReg := rfl
@[simp] theorem State.drawn_draws : (s.drawn).draws = s.draws + 1 := rfl

/-! ### writeByte -/

@[simp] theorem State.writeByte_params (a : Nat) (b : Byte) : (s.writeByte a b).params = s.params := rfl
@[simp] theorem State.writeByte_v (a : Nat) (b : Byte) : (s.writeByte a b).v = s.v := rfl
@[simp] theorem State.writeByte_i (a : Nat) (b : Byte) : (s.writeByte a b).i = s.i := rfl
@[simp] theorem State.writeByte_pc (a : Nat) (b : Byte) : (s.writeByte a b).pc = s.pc := rfl
@[simp] theorem State.writeByte_sp (a : Nat) (b : Byte) : (s.writeByte a b).sp = s.sp := rfl
@[simp] theorem State.writeByte_stack (a : Nat) (b : Byte) : (s.writeByte a b).stack = s.stack := rfl
@[simp] theorem State.writeByte_mem (a : Nat) (b : Byte) : (s.writeByte a b).mem = Memory.write s.params.font s.mem a b := rfl
@[simp] theorem State.writeByte_dt (a : Nat) (b : Byte) : (s.writeByte a b).dt = s.dt := rfl
@[simp] theorem State.writeByte_st (a : Nat) (b : Byte) : (s.writeByte a b).st = s.st := rfl
@[simp] theorem State.writeByte_key (a : Nat) (b : Byte) : (s.writeByte a b).key = s.key := rfl
@[simp] theorem State.writeByte_fb (a : Nat) (b : Byte) : (s.writeByte a b).fb = s.fb := rfl
@[simp] theorem State.writeByte_mode (a : Nat) (b : Byte) : (s.writeByte a b).mode = s.mode := rfl
@[simp] theorem State.writeByte_waitReg (a : Nat) (b : Byte) : (s.writeByte a b).waitReg = s.waitReg := rfl
@[simp] theorem State.writeByte_draws (a : Nat) (b : Byte) : (s.writeByte a b).draws = s.draws := rfl

/-! ### Accessors over updates of other fields -/

@[simp] theorem State.setReg_keyDown (x : Reg) (b : Byte) (q : Key) : (s.setReg x b).keyDown q = s.keyDown q := rfl
@[simp] theorem State.setReg_readByte (x : Reg) (b : Byte) (m : Nat) : (s.setReg x b).readByte m = s.readByte m := rfl
@[simp] theorem State.setReg_stackSlot (x : Reg) (b : Byte) (m : Nat) : (s.setReg x b).stackSlot m = s.stackSlot m := rfl
@[simp] theorem State.setIndex_reg (a : Word) (r : Reg) : (s.setIndex a).reg r = s.reg r := rfl
@[simp] theorem State.setIndex_keyDown (a : Word) (q : Key) : (s.setIndex a).keyDown q = s.keyDown q := rfl
@[simp] theorem State.setIndex_readByte (a : Word) (m : Nat) : (s.setIndex a).readByte m = s.readByte m := rfl
@[simp] theorem State.setIndex_stackSlot (a : Word) (m : Nat) : (s.setIndex a).stackSlot m = s.stackSlot m := rfl
@[simp] theorem State.setPc_reg (a : Word) (r : Reg) : (s.setPc a).reg r = s.reg r := rfl
@[simp] theorem State.setPc_keyDown (a : Word) (q : Key) : (s.setPc a).keyDown q = s.keyDown q := rfl
@[simp] theorem State.setPc_readByte (a : Word) (m : Nat) : (s.setPc a).readByte m = s.readByte m := rfl
@[simp] theorem State.setPc_stackSlot (a : Word) (m : Nat) : (s.setPc a).stackSlot m = s.stackSlot m := rfl
@[simp] theorem State.advance_reg (r : Reg) : (s.advance).reg r = s.reg r := rfl
@[simp] theorem State.advance_keyDown (q : Key) : (s.advance).keyDown q = s.keyDown q := rfl
@[simp] theorem State.advance_readByte (m : Nat) : (s.advance).readByte m = s.readByte m := rfl
@[simp] theorem State.advance_stackSlot (m : Nat) : (s.advance).stackSlot m = s.stackSlot m := rfl
@[simp] theorem State.skipIf_reg (c : Bool) (r : Reg) : (s.skipIf c).reg r = s.reg r := rfl
@[simp] theorem State.skipIf_keyDown (c : Bool) (q : Key) : (s.skipIf c).keyDown q = s.keyDown q := rfl
@[simp] theorem State.skipIf_readByte (c : Bool) (m : Nat) : (s.skipIf c).readByte m = s.readByte m := rfl
@[simp] theorem State.skipIf_stackSlot (c : Bool) (m : Nat) : (s.skipIf c).stackSlot m = s.stackSlot m := rfl
@[simp] theorem State.push_reg (a : Word) (r : Reg) : (s.push a).reg r = s.reg r := rfl
@[simp] theorem State.push_keyDown (a : Word) (q : Key) : (s.push a).keyDown q = s.keyDown q := rfl
@[simp] theorem State.push_readByte (a : Word) (m : Nat) : (s.push a).readByte m = s.readByte m := rfl
@[simp] theorem State.pop_reg (r : Reg) : (s.pop).reg r = s.reg r := rfl
@[simp] theorem State.pop_keyDown (q : Key) : (s.pop).keyDown q = s.keyDown q := rfl
@[simp] theorem State.pop_readByte (m : Nat) : (s.pop).readByte m = s.readByte m := rfl
@[simp] theorem State.pop_stackSlot (m : Nat) : (s.pop).stackSlot m = s.stackSlot m := rfl
@[simp] theorem State.setDelay_reg (b : Byte) (r : Reg) : (s.setDelay b).reg r = s.reg r := rfl
@[simp] theorem State.setDelay_keyDown (b : Byte) (q : Key) : (s.setDelay b).keyDown q = s.keyDown q := rfl
@[simp] theorem State.setDelay_readByte (b : Byte) (m : Nat) : (s.setDelay b).readByte m = s.readByte m := rfl
@[simp] theorem State.setDelay_stackSlot (b : Byte) (m : Nat) : (s.setDelay b).stackSlot m = s.stackSlot m := rfl
@[simp] theorem State.setSound_reg (b : Byte) (r : Reg) : (s.setSound b).reg r = s.reg r := rfl
@[simp] theorem State.setSound_keyDown (b : Byte) (q : Key) : (s.setSound b).keyDown q = s.keyDown q := rfl
@[simp] theorem State.setSound_readByte (b : Byte) (m : Nat) : (s.setSound b).readByte m = s.readByte m := rfl
@[simp] theorem State.setSound_stackSlot (b : Byte) (m : Nat) : (s.setSound b).stackSlot m = s.stackSlot m := rfl
@[simp] theorem State.setFb_reg (f : Framebuffer) (r : Reg) : (s.setFb f).reg r = s.reg r := rfl
@[simp] theorem State.setFb_keyDown (f : Framebuffer) (q : Key) : (s.setFb f).keyDown q = s.keyDown q := rfl
@[simp] theorem State.setFb_readByte (f : Framebuffer) (m : Nat) : (s.setFb f).readByte m = s.readByte m := rfl
@[simp] theorem State.setFb_stackSlot (f : Framebuffer) (m : Nat) : (s.setFb f).stackSlot m = s.stackSlot m := rfl
@[simp] theorem State.setKey_reg (k : Key) (p : Bool) (r : Reg) : (s.setKey k p).reg r = s.reg r := rfl
@[simp] theorem State.setKey_readByte (k : Key) (p : Bool) (m : Nat) : (s.setKey k p).readByte m = s.readByte m := rfl
@[simp] theorem State.setKey_stackSlot (k : Key) (p : Bool) (m : Nat) : (s.setKey k p).stackSlot m = s.stackSlot m := rfl
@[simp] theorem State.awaitKey_reg (x : Reg) (r : Reg) : (s.awaitKey x).reg r = s.reg r := rfl
@[simp] theorem State.awaitKey_keyDown (x : Reg) (q : Key) : (s.awaitKey x).keyDown q = s.keyDown q := rfl
@[simp] theorem State.awaitKey_readByte (x : Reg) (m : Nat) : (s.awaitKey x).readByte m = s.readByte m := rfl
@[simp] theorem State.awaitKey_stackSlot (x : Reg) (m : Nat) : (s.awaitKey x).stackSlot m = s.stackSlot m := rfl
@[simp] theorem State.setReady_reg (r : Reg) : (s.setReady).reg r = s.reg r := rfl
@[simp] theorem State.setReady_keyDown (q : Key) : (s.setReady).keyDown q = s.keyDown q := rfl
@[simp] theorem State.setReady_readByte (m : Nat) : (s.setReady).readByte m = s.readByte m := rfl
@[simp] theorem State.setReady_stackSlot (m : Nat) : (s.setReady).stackSlot m = s.stackSlot m := rfl
@[simp] theorem State.drawn_reg (r : Reg) : (s.drawn).reg r = s.reg r := rfl
@[simp] theorem State.drawn_keyDown (q : Key) : (s.drawn).keyDown q = s.keyDown q := rfl
@[simp] theorem State.drawn_readByte (m : Nat) : (s.drawn).readByte m = s.readByte m := rfl
@[simp] theorem State.drawn_stackSlot (m : Nat) : (s.drawn).stackSlot m = s.stackSlot m := rfl
@[simp] theorem State.writeByte_reg (a : Nat) (b : Byte) (r : Reg) : (s.writeByte a b).reg r = s.reg r := rfl
@[simp] theorem State.writeByte_keyDown (a : Nat) (b : Byte) (q : Key) : (s.writeByte a b).keyDown q = s.keyDown q := rfl
@[simp] theorem State.writeByte_stackSlot (a : Nat) (b : Byte) (m : Nat) : (s.writeByte a b).stackSlot m = s.stackSlot m := rfl

/-! ### The reset state -/

@[simp] theorem State.reset_pc : State.reset.pc = 0x200 := rfl
@[simp] theorem State.reset_sp : State.reset.sp = 0 := rfl
@[simp] theorem State.reset_i : State.reset.i = 0 := rfl
@[simp] theorem State.reset_mem : State.reset.mem = [] := rfl
@[simp] theorem State.reset_mode : State.reset.mode = .ready := rfl
@[simp] theorem State.reset_params : State.reset.params = defaultParams := rfl

end Sys2Proof.Machine
end

