-- ==== Sys2Proof/Laws/Framebuffer.lean ====
section
/-! SUPPORT. The framebuffer: coordinates wrap, and a toggle flips one cell. -/

namespace Sys2Proof.Machine

/-- Columns wrap modulo 64 and rows modulo 32 (43_display.md R171). -/
theorem Framebuffer.get_mod (f : Framebuffer) (px py : Nat) :
    f.get (px % 64) (py % 32) = f.get px py := by
  simp [Framebuffer.get, Config.fbWidth, Config.fbHeight]

@[simp] theorem Framebuffer.get_allOff (px py : Nat) : Framebuffer.allOff.get px py = false := by
  simp [Framebuffer.get, Framebuffer.allOff]

theorem Framebuffer.get_put (f : Framebuffer) (px py c r : Nat) (b : Bool) :
    (f.put px py b).get c r = if px % 64 = c % 64 ∧ py % 32 = r % 32 then b else f.get c r := by
  simp only [Framebuffer.get, Framebuffer.put, Config.fbWidth, Config.fbHeight, Vector.getElem_set]
  by_cases h1 : px % 64 = c % 64
  · by_cases h2 : py % 32 = r % 32
    · simp [h1, h2]
    · simp [h1, h2]
  · simp [h1]

/-- A toggle flips its cell and no other (43_display.md R171). -/
theorem Framebuffer.get_toggle (f : Framebuffer) (px py c r : Nat) :
    (f.toggle px py).get c r = if px % 64 = c % 64 ∧ py % 32 = r % 32 then !f.get c r else f.get c r := by
  rw [Framebuffer.toggle, Framebuffer.get_put]
  split
  · next h => rw [← Framebuffer.get_mod f px py, ← Framebuffer.get_mod f c r, h.1, h.2]
  · rfl

/-- Two framebuffers with the same pixels are equal. -/
theorem Framebuffer.ext_get (f g : Framebuffer) (h : ∀ c r, c < 64 → r < 32 → f.get c r = g.get c r) : f = g := by
  cases f with
  | mk fc => cases g with
    | mk gc =>
      congr 1
      apply Vector.ext
      intro c hc
      apply Vector.ext
      intro r hr
      have hc' : c % Config.fbWidth = c := Nat.mod_eq_of_lt hc
      have hr' : r % Config.fbHeight = r := Nat.mod_eq_of_lt hr
      have := h c r hc hr
      simpa only [Framebuffer.get, hc', hr'] using this

@[simp] theorem blitSprite_nil (f : Framebuffer) (px py : Nat) : blitSprite f px py [] = (f, false) := rfl

end Sys2Proof.Machine
end

