-- ==== Sys2Proof/Laws/Memory.lean ====
section
/-! SUPPORT. Memory: a read after a write, the canonical form kept by every write, and the byte sequences of the
storing instructions. -/

namespace Sys2Proof.Machine

/-! ## The list -/

theorem Memory.find?_insert (m : Memory) (a c : Nat) (b : Byte) :
    Memory.find? (Memory.insert m a b) c = if a = c then some b else Memory.find? m c := by
  induction m with
  | nil => simp [Memory.insert, Memory.find?]
  | cons d rest ih => grind [Memory.insert, Memory.find?]

theorem Memory.find?_erase (m : Memory) (a c : Nat) :
    Memory.find? (Memory.erase m a) c = if a = c then none else Memory.find? m c := by
  induction m with
  | nil => simp [Memory.erase, Memory.find?]
  | cons d rest ih => grind [Memory.erase, Memory.find?]

/-- A read after a write: the value written at its address, the old value elsewhere. -/
theorem Memory.read_write (font : Config.Font) (m : Memory) (a c : Nat) (b : Byte) :
    Memory.read font (Memory.write font m a b) c = if a = c then b else Memory.read font m c := by
  unfold Memory.read Memory.write
  split
  · rw [Memory.find?_erase]; grind
  · rw [Memory.find?_insert]; grind

@[simp] theorem Memory.read_nil (font : Config.Font) (a : Nat) : Memory.read font [] a = resetByte font a := rfl

theorem Memory.mem_insert (m : Memory) (a : Nat) (b : Byte) (d : Host.Cell) (h : d ∈ Memory.insert m a b) :
    d = (a, b) ∨ d ∈ m := by
  induction m with
  | nil => simpa [Memory.insert] using h
  | cons e rest ih => grind [Memory.insert]

theorem Memory.mem_erase (m : Memory) (a : Nat) (d : Host.Cell) (h : d ∈ Memory.erase m a) : d ∈ m := by
  induction m with
  | nil => simp [Memory.erase] at h
  | cons e rest ih => grind [Memory.erase]

theorem Memory.insert_rising (m : Memory) (a : Nat) (b : Byte) (h : m.Pairwise fun c d => c.1 < d.1) :
    (Memory.insert m a b).Pairwise fun c d => c.1 < d.1 := by
  induction m with
  | nil => simp [Memory.insert]
  | cons e rest ih =>
    have hrest := (List.pairwise_cons.1 h).2
    have hhead := (List.pairwise_cons.1 h).1
    unfold Memory.insert
    split
    · refine List.pairwise_cons.2 ⟨?_, h⟩
      intro d hd
      rcases List.mem_cons.1 hd with rfl | hd
      · assumption
      · have := hhead d hd; simp only; omega
    · split
      · refine List.pairwise_cons.2 ⟨?_, hrest⟩
        intro d hd
        have := hhead d hd; simp only; omega
      · refine List.pairwise_cons.2 ⟨?_, ih hrest⟩
        intro d hd
        rcases Memory.mem_insert _ _ _ _ hd with rfl | hd
        · simp only; omega
        · exact hhead d hd

theorem Memory.erase_rising (m : Memory) (a : Nat) (h : m.Pairwise fun c d => c.1 < d.1) :
    (Memory.erase m a).Pairwise fun c d => c.1 < d.1 := by
  induction m with
  | nil => simp [Memory.erase]
  | cons e rest ih =>
    have hrest := (List.pairwise_cons.1 h).2
    have hhead := (List.pairwise_cons.1 h).1
    unfold Memory.erase
    split
    · exact ih hrest
    · exact List.pairwise_cons.2 ⟨fun d hd => hhead d (Memory.mem_erase _ _ _ hd), ih hrest⟩

@[simp] theorem Memory.wf_nil (font : Config.Font) : Memory.wf font [] := by simp [Memory.wf]

/-- A write to an address of the block keeps the canonical form. -/
theorem Memory.write_keeps_wf (font : Config.Font) (m : Memory) (a : Nat) (b : Byte) (ha : a < Config.memSize)
    (h : Memory.wf font m) : Memory.wf font (Memory.write font m a b) := by
  unfold Memory.write
  split
  · exact ⟨Memory.erase_rising m a h.1, fun c hc => h.2 c (Memory.mem_erase _ _ _ hc)⟩
  · refine ⟨Memory.insert_rising m a b h.1, fun c hc => ?_⟩
    rcases Memory.mem_insert _ _ _ _ hc with rfl | hc
    · exact ⟨ha, by assumption⟩
    · exact h.2 c hc

/-! ## The machine's memory -/

theorem State.readByte_writeByte (s : State) (a c : Nat) (b : Byte) :
    (s.writeByte a b).readByte c = if a = c then b else s.readByte c :=
  Memory.read_write s.params.font s.mem a c b

/-- Writing bytes changes memory and nothing else. -/
theorem State.writeBytes_eq (s : State) (a : Nat) (bytes : List Byte) :
    s.writeBytes a bytes = { s with mem := (s.writeBytes a bytes).mem } := by
  induction bytes generalizing s a with
  | nil => rfl
  | cons b rest ih =>
    unfold State.writeBytes
    rw [ih (s.writeByte a b) (a + 1)]
    rfl

section
variable (s : State) (a : Nat) (bytes : List Byte)
@[simp] theorem State.writeBytes_params : (s.writeBytes a bytes).params = s.params := by rw [State.writeBytes_eq]
@[simp] theorem State.writeBytes_v : (s.writeBytes a bytes).v = s.v := by rw [State.writeBytes_eq]
@[simp] theorem State.writeBytes_i : (s.writeBytes a bytes).i = s.i := by rw [State.writeBytes_eq]
@[simp] theorem State.writeBytes_pc : (s.writeBytes a bytes).pc = s.pc := by rw [State.writeBytes_eq]
@[simp] theorem State.writeBytes_sp : (s.writeBytes a bytes).sp = s.sp := by rw [State.writeBytes_eq]
@[simp] theorem State.writeBytes_stack : (s.writeBytes a bytes).stack = s.stack := by rw [State.writeBytes_eq]
@[simp] theorem State.writeBytes_dt : (s.writeBytes a bytes).dt = s.dt := by rw [State.writeBytes_eq]
@[simp] theorem State.writeBytes_st : (s.writeBytes a bytes).st = s.st := by rw [State.writeBytes_eq]
@[simp] theorem State.writeBytes_key : (s.writeBytes a bytes).key = s.key := by rw [State.writeBytes_eq]
@[simp] theorem State.writeBytes_fb : (s.writeBytes a bytes).fb = s.fb := by rw [State.writeBytes_eq]
@[simp] theorem State.writeBytes_mode : (s.writeBytes a bytes).mode = s.mode := by rw [State.writeBytes_eq]
@[simp] theorem State.writeBytes_waitReg : (s.writeBytes a bytes).waitReg = s.waitReg := by rw [State.writeBytes_eq]
@[simp] theorem State.writeBytes_draws : (s.writeBytes a bytes).draws = s.draws := by rw [State.writeBytes_eq]
@[simp] theorem State.writeBytes_reg (r : Reg) : (s.writeBytes a bytes).reg r = s.reg r := by
  simp [State.reg]
@[simp] theorem State.writeBytes_keyDown (k : Key) : (s.writeBytes a bytes).keyDown k = s.keyDown k := by
  simp [State.keyDown]
end

/-- A read after a sequence of writes: the byte written there, or the old one outside the range. -/
theorem State.readByte_writeBytes (s : State) (a c : Nat) (bytes : List Byte) :
    (s.writeBytes a bytes).readByte c =
      if a ≤ c ∧ c < a + bytes.length then bytes.getD (c - a) 0 else s.readByte c := by
  induction bytes generalizing s a with
  | nil => simp only [State.writeBytes, List.length_nil]; grind
  | cons b rest ih =>
    unfold State.writeBytes
    rw [ih, State.readByte_writeByte, List.length_cons]
    by_cases h1 : a = c
    · subst h1; grind
    · by_cases h2 : a + 1 ≤ c ∧ c < a + 1 + rest.length
      · have e : c - a = (c - (a + 1)) + 1 := by omega
        rw [if_pos h2, if_pos (by omega), e, List.getD_cons_succ]
      · rw [if_neg h2, if_neg h1, if_neg (by omega)]

/-- A sequence of writes inside the block keeps the canonical form. -/
theorem State.writeBytes_keeps_wf (s : State) (a : Nat) (bytes : List Byte)
    (ha : a + bytes.length ≤ Config.memSize) (h : Memory.wf s.params.font s.mem) :
    Memory.wf s.params.font (s.writeBytes a bytes).mem := by
  induction bytes generalizing s a with
  | nil => exact h
  | cons b rest ih =>
    rw [List.length_cons] at ha
    exact ih (s.writeByte a b) (a + 1) (by omega)
      (Memory.write_keeps_wf s.params.font s.mem a b (by omega) h)

@[simp] theorem State.readBytes_length (s : State) (a len : Nat) : (s.readBytes a len).length = len := by
  induction len generalizing a with
  | zero => rfl
  | succ n ih => simp [State.readBytes, ih]

/-- The `k`-th byte read is the byte at its address. -/
theorem State.readBytes_getD (s : State) (a len k : Nat) (h : k < len) :
    (s.readBytes a len).getD k 0 = s.readByte (a + k) := by
  induction len generalizing a k with
  | zero => omega
  | succ n ih =>
    cases k with
    | zero => simp [State.readBytes]
    | succ k =>
      rw [State.readBytes, List.getD_cons_succ, ih (a + 1) k (by omega)]
      congr 1; omega

end Sys2Proof.Machine
end

