-- ==== Sys2Proof/Laws/Ops.lean ====
section
/-! SUPPORT. What each shared operation can do, once: registers, keys, the range check, the key operand, the fetch, the
step and the commands. -/

namespace Sys2Proof.Machine

/-! ## Registers and keys -/

theorem State.reg_setReg (s : State) (x r : Reg) (b : Byte) :
    (s.setReg x b).reg r = if x = r then b else s.reg r := by
  by_cases h : x = r
  · subst h; simp [State.reg, State.setReg]
  · have : x.toNat ≠ r.toNat := fun e => h (BitVec.eq_of_toNat_eq e)
    simp [State.reg, State.setReg, h, this]

@[simp] theorem State.reg_setReg_same (s : State) (x : Reg) (b : Byte) : (s.setReg x b).reg x = b := by
  simp [State.reg_setReg]

/-- A register write leaves every other register alone. -/
theorem State.reg_setReg_other (s : State) (x r : Reg) (b : Byte) (h : x ≠ r) :
    (s.setReg x b).reg r = s.reg r := by
  simp [State.reg_setReg, h]

/-- The flag is written last: with `x = F` it stays (42_alu.md R153). -/
theorem State.reg_setResultAndFlag (s : State) (x r : Reg) (result flag : Byte) :
    (s.setResultAndFlag x result flag).reg r =
      if r = regF then flag else if r = x then result else s.reg r := by
  unfold State.setResultAndFlag
  rw [State.reg_setReg, State.reg_setReg]
  grind

theorem State.keyDown_setKey (s : State) (k q : Key) (p : Bool) :
    (s.setKey k p).keyDown q = if k = q then p else s.keyDown q := by
  by_cases h : k = q
  · subst h; simp [State.keyDown, State.setKey]
  · have : k.toNat ≠ q.toNat := fun e => h (BitVec.eq_of_toNat_eq e)
    simp [State.keyDown, State.setKey, h, this]

/-- Writing registers changes the registers and nothing else. -/
theorem State.writeRegs_eq (s : State) (j : Nat) (bytes : List Byte) :
    s.writeRegs j bytes = { s with v := (s.writeRegs j bytes).v } := by
  induction bytes generalizing s j with
  | nil => rfl
  | cons b rest ih =>
    unfold State.writeRegs
    rw [ih (s.setReg (BitVec.ofNat 4 j) b) (j + 1)]
    rfl

/-- The registers after a range load: the byte at its index, or the old value outside the range. -/
theorem State.reg_writeRegs (s : State) (j : Nat) (bytes : List Byte) (r : Reg) (h : j + bytes.length ≤ 16) :
    (s.writeRegs j bytes).reg r =
      if j ≤ r.toNat ∧ r.toNat < j + bytes.length then bytes.getD (r.toNat - j) 0 else s.reg r := by
  induction bytes generalizing s j with
  | nil => simp only [State.writeRegs, List.length_nil]; grind
  | cons b rest ih =>
    rw [List.length_cons] at h
    unfold State.writeRegs
    rw [ih (s.setReg (BitVec.ofNat 4 j) b) (j + 1) (by omega), State.reg_setReg, List.length_cons]
    by_cases h1 : BitVec.ofNat 4 j = r
    · have e : r.toNat = j := by rw [← h1, BitVec.toNat_ofNat]; omega
      rw [if_neg (by omega), if_pos h1, if_pos (by omega), e, Nat.sub_self, List.getD_cons_zero]
    · have e : r.toNat ≠ j := by
        intro e
        apply h1
        apply BitVec.eq_of_toNat_eq
        rw [BitVec.toNat_ofNat, e]
        omega
      by_cases h2 : j + 1 ≤ r.toNat ∧ r.toNat < j + 1 + rest.length
      · have e2 : r.toNat - j = (r.toNat - (j + 1)) + 1 := by omega
        rw [if_pos h2, if_pos (by omega), e2, List.getD_cons_succ]
      · rw [if_neg h2, if_neg h1, if_neg (by omega)]

@[simp] theorem regRange_length (s : State) (x : Reg) : (regRange s x).length = x.toNat + 1 := by
  simp [regRange]

theorem regRange_getD (s : State) (x r : Reg) (h : r.toNat ≤ x.toNat) :
    (regRange s x).getD r.toNat 0 = s.reg r := by
  have hlt : r.toNat < (regRange s x).length := by rw [regRange_length]; omega
  rw [List.getD_eq_getElem _ _ hlt]
  simp [regRange]

@[simp] theorem bcdDigits_length (b : Byte) : (bcdDigits b).length = 3 := rfl

@[simp] theorem indexedBytes_length (s : State) (len : Nat) : (indexedBytes s len).length = len := by
  simp [indexedBytes]

/-! ## Checks -/

/-- The range check passes exactly when the range is empty or ends by 0xFFF (20_memory.md R64). -/
theorem withDataRange_cases (s : State) (len : Nat) (body : Result) :
    (withDataRange s len body = body ∧ (len = 0 ∨ s.i.toNat + len ≤ 0x1000)) ∨
      (withDataRange s len body = .fault (.outOfBounds .data s.i) ∧ 0 < len ∧ 0x1000 < s.i.toNat + len) := by
  unfold withDataRange raise
  split
  · right; exact ⟨rfl, by omega, by omega⟩
  · left; exact ⟨rfl, by omega⟩

theorem withDataRange_ok (s : State) (len : Nat) (body : Result) (h : len = 0 ∨ s.i.toNat + len ≤ 0x1000) :
    withDataRange s len body = body := by
  unfold withDataRange
  rw [if_neg (by omega)]

theorem withDataRange_raises (s : State) (len : Nat) (body : Result) (h : 0 < len ∧ 0x1000 < s.i.toNat + len) :
    withDataRange s len body = .fault (.outOfBounds .data s.i) := by
  unfold withDataRange raise
  rw [if_pos (by omega)]

/-- A range-checked instruction that answers a next state passed its check. -/
theorem withDataRange_next (s t : State) (len : Nat) (body : Result) (h : withDataRange s len body = .next t) :
    body = .next t ∧ (len = 0 ∨ s.i.toNat + len ≤ 0x1000) := by
  rcases withDataRange_cases s len body with ⟨e, hl⟩ | ⟨e, -⟩
  · exact ⟨by rw [← h, e], hl⟩
  · rw [e] at h; cases h

/-- The key operand names a key exactly when `Vx` is at most 0xF (45_timers_keys.md R217). -/
theorem withKey_cases (s : State) (x : Reg) (body : Key → Result) :
    (withKey s x body = body ((s.reg x).setWidth 4) ∧ (s.reg x).toNat ≤ 0xF) ∨
      (withKey s x body = .fault (.outOfBounds .key (s.reg x).toWord) ∧ 0xF < (s.reg x).toNat) := by
  unfold withKey raise
  split
  · right; exact ⟨rfl, by assumption⟩
  · left; exact ⟨rfl, by omega⟩

/-! ## Fetch, step, commands -/

/-- What the fetch answers (20_memory.md R62). -/
theorem fetch_cases (s : State) :
    (fetch s = .ok (s.readByte s.pc.toNat ++ s.readByte (s.pc.toNat + 1)) ∧ s.pc.toNat ≤ 0xFFE) ∨
      (fetch s = .error (.outOfBounds .fetch s.pc) ∧ 0xFFE < s.pc.toNat) := by
  unfold fetch
  split
  · right; exact ⟨rfl, by assumption⟩
  · left; exact ⟨rfl, by omega⟩

/-- No instruction is refused: every one has its meaning. -/
theorem exec_never_refuses (i : Instr) (s : State) (r : Refusal) : exec i s ≠ .refused r := by
  cases i <;>
    simp only [exec, execCls, execRet, execJp, execCall, execSeImm, execSneImm, execSeReg, execLdImm, execAddImm,
      execLdReg, execOrReg, execAndReg, execXorReg, execAddReg, execSubReg, execShr, execSubn, execShl, execSneReg,
      execLdI, execJpV0, execRnd, execDrw, execSkp, execSknp, execLdVxDT, execLdVxK, execLdDT, execLdST, execAddI,
      execLdF, execLdB, execStRegs, execLdRegs, finishReg, finishFlag, withDataRange, withKey, raise, ne_eq,
      reduceCtorEq, not_false_eq_true] <;>
    (repeat' split) <;> simp

/-- Everything a step that answers a next state can have done (40_step.md R109). -/
theorem step_next_cases (s t : State) (h : step s = .next t) :
    (s.mode = .awaitKey ∧ t = s) ∨
    (s.mode = .ready ∧ s.pc.toNat ≤ 0xFFE ∧ ∃ op, fetch s = .ok op ∧
      ((∃ i, decodeWord op = .ok i ∧ exec i s = .next t) ∨
       (∃ e, decodeWord op = .error e ∧ t = s.advance))) := by
  unfold step at h
  cases hm : s.mode with
  | awaitKey =>
    rw [hm] at h
    simp only [stepAwaiting, Host.Outcome.next.injEq] at h
    exact .inl ⟨rfl, h.symm⟩
  | ready =>
    rw [hm] at h
    right
    rcases fetch_cases s with ⟨hf, hpc⟩ | ⟨hf, -⟩
    · refine ⟨rfl, hpc, _, hf, ?_⟩
      rw [hf] at h
      simp only at h
      cases hd : decodeWord (s.readByte s.pc.toNat ++ s.readByte (s.pc.toNat + 1)) with
      | ok i => rw [hd] at h; exact .inl ⟨i, rfl, h⟩
      | error e =>
        rw [hd] at h
        simp only [stepUnknown, unknownOpcode, Host.Outcome.next.injEq] at h
        exact .inr ⟨e, rfl, h.symm⟩
    · rw [hf] at h; cases h

/-- loadProgram copies, or raises with nothing written (20_memory.md R70). -/
theorem loadProgram_cases (bytes : List Byte) (s : State) :
    (loadProgram bytes s = .next (s.writeBytes 0x200 bytes) ∧ bytes.length ≤ 3584) ∨
      (loadProgram bytes s = .fault (.programTooLarge bytes.length) ∧ 3584 < bytes.length) := by
  unfold loadProgram raise
  split
  · right; exact ⟨rfl, by simpa [Config.memSize, Config.progBase] using (by assumption : _ < bytes.length)⟩
  · left; exact ⟨rfl, by rename_i h; simp only [Config.memSize, Config.progBase] at h; omega⟩

/-- A sequence of commands, one after another (40_step.md R101). -/
theorem runCommands_append (cs ds : List Command) (s : State) :
    runCommands (cs ++ ds) s = runCommands ds (runCommands cs s) := by
  induction cs generalizing s with
  | nil => rfl
  | cons c rest ih => exact ih (command c s).1

/-- What every command keeps, every sequence of commands keeps. -/
theorem runCommands_keeps (P : State → Prop) (keep : ∀ c s, P s → P (command c s).1) (cs : List Command) (s : State)
    (h : P s) : P (runCommands cs s) := by
  induction cs generalizing s with
  | nil => exact h
  | cons c rest ih => exact ih (command c s).1 (keep c s h)

/-- The state in which a word is the next one fetched: the fetch reads that word. -/
theorem fetch_placeWord (s : State) (op : Word) : fetch (s.placeWord op) = .ok op := by
  unfold State.placeWord
  simp only
  generalize ht : (if 0xFFE < s.setReady.pc.toNat then s.setReady.setPc (BitVec.ofNat 16 Config.progBase)
    else s.setReady) = t
  have hpc : t.pc.toNat ≤ 0xFFE := by
    rw [← ht]
    split
    · simp [Config.progBase]
    · omega
  rcases fetch_cases (t.writeBytes t.pc.toNat (wordBytes op)) with ⟨hf, -⟩ | ⟨-, hbad⟩
  · rw [hf, State.writeBytes_pc, State.readByte_writeBytes, State.readByte_writeBytes]
    have e : (op.extractLsb' 8 8 ++ op.extractLsb' 0 8 : Word) = op := wordBytes_append op
    simpa [wordBytes] using e
  · rw [State.writeBytes_pc] at hbad; omega

end Sys2Proof.Machine
end

