-- ==== Sys2Proof/Laws/PerInstr.lean ====
section
/-! SUPPORT. Statements made per instruction. RowWord: an instruction's opcode selects its row of spec/opcode_table.json
(30_encoding.md R95). -/

namespace Sys2Proof.Laws

/-- The `match` of an instruction's row in spec/opcode_table.json. -/
def rowMatch (i : Instr) : Word :=
  match i with
  | .cls => 0x00E0#16
  | .ret => 0x00EE#16
  | .jp _ => 0x1000#16
  | .call _ => 0x2000#16
  | .seImm _ _ => 0x3000#16
  | .sneImm _ _ => 0x4000#16
  | .seReg _ _ => 0x5000#16
  | .ldImm _ _ => 0x6000#16
  | .addImm _ _ => 0x7000#16
  | .ldReg _ _ => 0x8000#16
  | .orReg _ _ => 0x8001#16
  | .andReg _ _ => 0x8002#16
  | .xorReg _ _ => 0x8003#16
  | .addReg _ _ => 0x8004#16
  | .subReg _ _ => 0x8005#16
  | .shr _ _ => 0x8006#16
  | .subn _ _ => 0x8007#16
  | .shl _ _ => 0x800E#16
  | .sneReg _ _ => 0x9000#16
  | .ldI _ => 0xA000#16
  | .jpV0 _ => 0xB000#16
  | .rnd _ _ => 0xC000#16
  | .drw _ _ _ => 0xD000#16
  | .skp _ => 0xE09E#16
  | .sknp _ => 0xE0A1#16
  | .ldVxDT _ => 0xF007#16
  | .ldVxK _ => 0xF00A#16
  | .ldDT _ => 0xF015#16
  | .ldST _ => 0xF018#16
  | .addI _ => 0xF01E#16
  | .ldF _ => 0xF029#16
  | .ldB _ => 0xF033#16
  | .stRegs _ => 0xF055#16
  | .ldRegs _ => 0xF065#16

/-- The `mask` of an instruction's row in spec/opcode_table.json. -/
def rowMask (i : Instr) : Word :=
  match i with
  | .cls => 0xFFFF#16
  | .ret => 0xFFFF#16
  | .jp _ => 0xF000#16
  | .call _ => 0xF000#16
  | .seImm _ _ => 0xF000#16
  | .sneImm _ _ => 0xF000#16
  | .seReg _ _ => 0xF00F#16
  | .ldImm _ _ => 0xF000#16
  | .addImm _ _ => 0xF000#16
  | .ldReg _ _ => 0xF00F#16
  | .orReg _ _ => 0xF00F#16
  | .andReg _ _ => 0xF00F#16
  | .xorReg _ _ => 0xF00F#16
  | .addReg _ _ => 0xF00F#16
  | .subReg _ _ => 0xF00F#16
  | .shr _ _ => 0xF00F#16
  | .subn _ _ => 0xF00F#16
  | .shl _ _ => 0xF00F#16
  | .sneReg _ _ => 0xF00F#16
  | .ldI _ => 0xF000#16
  | .jpV0 _ => 0xF000#16
  | .rnd _ _ => 0xF000#16
  | .drw _ _ _ => 0xF000#16
  | .skp _ => 0xF0FF#16
  | .sknp _ => 0xF0FF#16
  | .ldVxDT _ => 0xF0FF#16
  | .ldVxK _ => 0xF0FF#16
  | .ldDT _ => 0xF0FF#16
  | .ldST _ => 0xF0FF#16
  | .addI _ => 0xF0FF#16
  | .ldF _ => 0xF0FF#16
  | .ldB _ => 0xF0FF#16
  | .stRegs _ => 0xF0FF#16
  | .ldRegs _ => 0xF0FF#16

/-- An opcode under the mask of the primary map is its top nibble (30_encoding.md R85). -/
theorem mask_family (op : Word) : op &&& 0xF000#16 = (opN3 op).setWidth 16 <<< 12 := by
  unfold opN3; ext i hi; interval_cases i <;> simp

/-- An opcode under the mask of families 5, 8 and 9 is its top and its bottom nibble (30_encoding.md R85, R87). -/
theorem mask_family_n (op : Word) : op &&& 0xF00F#16 = (opN3 op).setWidth 16 <<< 12 ||| (opN op).setWidth 16 := by
  unfold opN3 opN; ext i hi; interval_cases i <;> simp

/-- An opcode under the mask of families E and F is its top nibble and its low byte (30_encoding.md R88, R89). -/
theorem mask_family_kk (op : Word) : op &&& 0xF0FF#16 = (opN3 op).setWidth 16 <<< 12 ||| (opKK op).setWidth 16 := by
  unfold opN3 opKK; ext i hi; interval_cases i <;> simp

/-- The opcode of the instruction, under its row's mask, is its row's match. -/
def RowWord.Statement (i : Instr) : Prop := encode i &&& rowMask i = rowMatch i

theorem RowWord.cls : RowWord.Statement (.cls) := by
  simp only [RowWord.Statement, encode, rowMask, rowMatch]
  decide

theorem RowWord.ret : RowWord.Statement (.ret) := by
  simp only [RowWord.Statement, encode, rowMask, rowMatch]
  decide

theorem RowWord.jp (nnn : Word) : RowWord.Statement (.jp nnn) := by
  simp only [RowWord.Statement, encode, rowMask, rowMatch, mask_family, opN3_encodeNNN]
  decide

theorem RowWord.call (nnn : Word) : RowWord.Statement (.call nnn) := by
  simp only [RowWord.Statement, encode, rowMask, rowMatch, mask_family, opN3_encodeNNN]
  decide

theorem RowWord.seImm (x : Reg) (kk : Byte) : RowWord.Statement (.seImm x kk) := by
  simp only [RowWord.Statement, encode, rowMask, rowMatch, mask_family, opN3_encodeXKK]
  decide

theorem RowWord.sneImm (x : Reg) (kk : Byte) : RowWord.Statement (.sneImm x kk) := by
  simp only [RowWord.Statement, encode, rowMask, rowMatch, mask_family, opN3_encodeXKK]
  decide

theorem RowWord.seReg (x : Reg) (y : Reg) : RowWord.Statement (.seReg x y) := by
  simp only [RowWord.Statement, encode, rowMask, rowMatch, mask_family_n, opN3_encodeXYN, opN_encodeXYN]
  decide

theorem RowWord.ldImm (x : Reg) (kk : Byte) : RowWord.Statement (.ldImm x kk) := by
  simp only [RowWord.Statement, encode, rowMask, rowMatch, mask_family, opN3_encodeXKK]
  decide

theorem RowWord.addImm (x : Reg) (kk : Byte) : RowWord.Statement (.addImm x kk) := by
  simp only [RowWord.Statement, encode, rowMask, rowMatch, mask_family, opN3_encodeXKK]
  decide

theorem RowWord.ldReg (x : Reg) (y : Reg) : RowWord.Statement (.ldReg x y) := by
  simp only [RowWord.Statement, encode, rowMask, rowMatch, mask_family_n, opN3_encodeXYN, opN_encodeXYN]
  decide

theorem RowWord.orReg (x : Reg) (y : Reg) : RowWord.Statement (.orReg x y) := by
  simp only [RowWord.Statement, encode, rowMask, rowMatch, mask_family_n, opN3_encodeXYN, opN_encodeXYN]
  decide

theorem RowWord.andReg (x : Reg) (y : Reg) : RowWord.Statement (.andReg x y) := by
  simp only [RowWord.Statement, encode, rowMask, rowMatch, mask_family_n, opN3_encodeXYN, opN_encodeXYN]
  decide

theorem RowWord.xorReg (x : Reg) (y : Reg) : RowWord.Statement (.xorReg x y) := by
  simp only [RowWord.Statement, encode, rowMask, rowMatch, mask_family_n, opN3_encodeXYN, opN_encodeXYN]
  decide

theorem RowWord.addReg (x : Reg) (y : Reg) : RowWord.Statement (.addReg x y) := by
  simp only [RowWord.Statement, encode, rowMask, rowMatch, mask_family_n, opN3_encodeXYN, opN_encodeXYN]
  decide

theorem RowWord.subReg (x : Reg) (y : Reg) : RowWord.Statement (.subReg x y) := by
  simp only [RowWord.Statement, encode, rowMask, rowMatch, mask_family_n, opN3_encodeXYN, opN_encodeXYN]
  decide

theorem RowWord.shr (x : Reg) (y : Reg) : RowWord.Statement (.shr x y) := by
  simp only [RowWord.Statement, encode, rowMask, rowMatch, mask_family_n, opN3_encodeXYN, opN_encodeXYN]
  decide

theorem RowWord.subn (x : Reg) (y : Reg) : RowWord.Statement (.subn x y) := by
  simp only [RowWord.Statement, encode, rowMask, rowMatch, mask_family_n, opN3_encodeXYN, opN_encodeXYN]
  decide

theorem RowWord.shl (x : Reg) (y : Reg) : RowWord.Statement (.shl x y) := by
  simp only [RowWord.Statement, encode, rowMask, rowMatch, mask_family_n, opN3_encodeXYN, opN_encodeXYN]
  decide

theorem RowWord.sneReg (x : Reg) (y : Reg) : RowWord.Statement (.sneReg x y) := by
  simp only [RowWord.Statement, encode, rowMask, rowMatch, mask_family_n, opN3_encodeXYN, opN_encodeXYN]
  decide

theorem RowWord.ldI (nnn : Word) : RowWord.Statement (.ldI nnn) := by
  simp only [RowWord.Statement, encode, rowMask, rowMatch, mask_family, opN3_encodeNNN]
  decide

theorem RowWord.jpV0 (nnn : Word) : RowWord.Statement (.jpV0 nnn) := by
  simp only [RowWord.Statement, encode, rowMask, rowMatch, mask_family, opN3_encodeNNN]
  decide

theorem RowWord.rnd (x : Reg) (kk : Byte) : RowWord.Statement (.rnd x kk) := by
  simp only [RowWord.Statement, encode, rowMask, rowMatch, mask_family, opN3_encodeXKK]
  decide

theorem RowWord.drw (x : Reg) (y : Reg) (n : BitVec 4) : RowWord.Statement (.drw x y n) := by
  simp only [RowWord.Statement, encode, rowMask, rowMatch, mask_family, opN3_encodeXYN]
  decide

theorem RowWord.skp (x : Reg) : RowWord.Statement (.skp x) := by
  simp only [RowWord.Statement, encode, rowMask, rowMatch, mask_family_kk, opN3_encodeXKK, opKK_encodeXKK]
  decide

theorem RowWord.sknp (x : Reg) : RowWord.Statement (.sknp x) := by
  simp only [RowWord.Statement, encode, rowMask, rowMatch, mask_family_kk, opN3_encodeXKK, opKK_encodeXKK]
  decide

theorem RowWord.ldVxDT (x : Reg) : RowWord.Statement (.ldVxDT x) := by
  simp only [RowWord.Statement, encode, rowMask, rowMatch, mask_family_kk, opN3_encodeXKK, opKK_encodeXKK]
  decide

theorem RowWord.ldVxK (x : Reg) : RowWord.Statement (.ldVxK x) := by
  simp only [RowWord.Statement, encode, rowMask, rowMatch, mask_family_kk, opN3_encodeXKK, opKK_encodeXKK]
  decide

theorem RowWord.ldDT (x : Reg) : RowWord.Statement (.ldDT x) := by
  simp only [RowWord.Statement, encode, rowMask, rowMatch, mask_family_kk, opN3_encodeXKK, opKK_encodeXKK]
  decide

theorem RowWord.ldST (x : Reg) : RowWord.Statement (.ldST x) := by
  simp only [RowWord.Statement, encode, rowMask, rowMatch, mask_family_kk, opN3_encodeXKK, opKK_encodeXKK]
  decide

theorem RowWord.addI (x : Reg) : RowWord.Statement (.addI x) := by
  simp only [RowWord.Statement, encode, rowMask, rowMatch, mask_family_kk, opN3_encodeXKK, opKK_encodeXKK]
  decide

theorem RowWord.ldF (x : Reg) : RowWord.Statement (.ldF x) := by
  simp only [RowWord.Statement, encode, rowMask, rowMatch, mask_family_kk, opN3_encodeXKK, opKK_encodeXKK]
  decide

theorem RowWord.ldB (x : Reg) : RowWord.Statement (.ldB x) := by
  simp only [RowWord.Statement, encode, rowMask, rowMatch, mask_family_kk, opN3_encodeXKK, opKK_encodeXKK]
  decide

theorem RowWord.stRegs (x : Reg) : RowWord.Statement (.stRegs x) := by
  simp only [RowWord.Statement, encode, rowMask, rowMatch, mask_family_kk, opN3_encodeXKK, opKK_encodeXKK]
  decide

theorem RowWord.ldRegs (x : Reg) : RowWord.Statement (.ldRegs x) := by
  simp only [RowWord.Statement, encode, rowMask, rowMatch, mask_family_kk, opN3_encodeXKK, opKK_encodeXKK]
  decide

end Sys2Proof.Laws
end

