-- ==== Sys2Proof/Laws/Safety.lean ====
section
/-! SUPPORT. The small lemmas of the statements' own terms: the instruction a step completes, and a property along a
run. -/

namespace Sys2Proof.Machine

@[simp] theorem alongRun_nil (p : Command → State → Bool) (s : State) : alongRun p [] s = true := rfl

@[simp] theorem alongRun_cons (p : Command → State → Bool) (c : Command) (cs : List Command) (s : State) :
    alongRun p (c :: cs) s = (p c s && alongRun p cs (command c s).1) := rfl

/-- A fetched opcode whose instruction answers a next state completes that instruction. -/
theorem completedInstr_of_next (s t : State) (op : Word) (i : Instr) (hm : s.mode = .ready) (hf : fetch s = .ok op)
    (hd : decodeWord op = .ok i) (hx : exec i s = .next t) : completedInstr s = some i := by
  simp only [completedInstr, stepOpcode, hm, hf, hd, hx]

/-- The step command leaves the state as it was but for the advance of an unknown opcode, or what the completed
instruction did (40_step.md R109, 60_exceptions.md R232). -/
theorem step_command_cases (s : State) :
    (completedInstr s = none ∧ ((command .step s).1 = s ∨ (command .step s).1 = s.advance)) ∨
      ∃ i t, completedInstr s = some i ∧ exec i s = .next t ∧ (command .step s).1 = t := by
  cases hm : s.mode with
  | awaitKey =>
    left
    simp only [completedInstr, stepOpcode, command, step, hm, stepAwaiting, stateAfter]
    exact ⟨trivial, .inl trivial⟩
  | ready =>
    rcases fetch_cases s with ⟨hf, -⟩ | ⟨hf, -⟩
    · cases hd : decodeWord (s.readByte s.pc.toNat ++ s.readByte (s.pc.toNat + 1)) with
      | error e =>
        left
        simp only [completedInstr, stepOpcode, command, step, hm, hf, hd, stepUnknown, unknownOpcode, stateAfter]
        exact ⟨trivial, .inr trivial⟩
      | ok i =>
        cases hx : exec i s with
        | next t =>
          right
          refine ⟨i, t, completedInstr_of_next s t _ i hm hf hd hx, hx, ?_⟩
          simp only [command, step, hm, hf, hd, hx, stateAfter]
        | fault f =>
          left
          simp only [completedInstr, stepOpcode, command, step, hm, hf, hd, hx, stateAfter]
          exact ⟨trivial, .inl trivial⟩
        | refused r => exact absurd hx (exec_never_refuses i s r)
    · left
      simp only [completedInstr, stepOpcode, command, step, hm, hf, raise, stateAfter]
      exact ⟨trivial, .inl trivial⟩

end Sys2Proof.Machine
end

