-- ==== Sys2Proof/Tests/Slice0.lean ====
section
/-! SUPPORT. Tests: the checks of WellFormed, words written out from the spec's encodings, one step per instruction from
the vectors of 95_test_vectors.md, and for every statement with hypotheses a state that meets them. -/

namespace Sys2Proof.Tests

open Sys2Proof Sys2Proof.Machine

/-- The result is a next state with the property. -/
def nextIs (r : Result) (p : State → Bool) : Bool :=
  match r with
  | .next t => p t
  | .fault _ => false
  | .refused _ => false

/-- The result is this fault. -/
def faultIs (r : Result) (f : Fault) : Bool :=
  match r with
  | .next _ => false
  | .fault g => g == f
  | .refused _ => false

/-- One step on the opcode, placed at the program counter. -/
def run (s : State) (op : Word) (p : State → Bool) : Bool := nextIs (step (s.placeWord op)) p

/-- One step on the opcode ends with this fault. -/
def stops (s : State) (op : Word) (f : Fault) : Bool := faultIs (step (s.placeWord op)) f

/-- The reset state with two registers set. -/
def two (x : Reg) (a : Byte) (y : Reg) (b : Byte) : State := (State.reset.setReg x a).setReg y b

/-- The reset state with `I` set. -/
def at_ (i : Word) : State := State.reset.setIndex i

/-- The reset state with the parameter ANNN_LOADS_I true. -/
def loadsI : State := State.afterReset { defaultParams with annnLoadsI := true } 0

/-- The reset state with a full call stack. -/
def fullStack : State := { State.reset with sp := 16 }

/-! ## WellFormed refuses -/

theorem test_illformed_jp : Instr.wellFormed (.jp 0x1000) = false := by decide
theorem test_illformed_call : Instr.wellFormed (.call 0x1000) = false := by decide
theorem test_illformed_ldI : Instr.wellFormed (.ldI 0x1000) = false := by decide
theorem test_illformed_jpV0 : Instr.wellFormed (.jpV0 0xFFFF) = false := by decide
theorem test_wellformed_jp_limit : Instr.wellFormed (.jp 0xFFF) = true := by decide

/-! ## Every constructor from a word written out bit by bit (30_encoding.md R81, R85-R89) -/

theorem test_decode_cls : decodeTableWord 16 0b0000000011100000 = some .cls := by decide
theorem test_decode_ret : decodeTableWord 16 0b0000000011101110 = some .ret := by decide
theorem test_decode_jp : decodeTableWord 16 0b0001101010111100 = some (.jp 0xABC) := by decide
theorem test_decode_call : decodeTableWord 16 0b0010001000001000 = some (.call 0x208) := by decide
theorem test_decode_seImm : decodeTableWord 16 0b0011001100010010 = some (.seImm 3 0x12) := by decide
theorem test_decode_sneImm : decodeTableWord 16 0b0100001100010010 = some (.sneImm 3 0x12) := by decide
theorem test_decode_seReg : decodeTableWord 16 0b0101000100100000 = some (.seReg 1 2) := by decide
theorem test_decode_ldImm : decodeTableWord 16 0b0110101010111100 = some (.ldImm 0xA 0xBC) := by decide
theorem test_decode_addImm : decodeTableWord 16 0b0111001000100000 = some (.addImm 2 0x20) := by decide
theorem test_decode_ldReg : decodeTableWord 16 0b1000000000010000 = some (.ldReg 0 1) := by decide
theorem test_decode_orReg : decodeTableWord 16 0b1000000000010001 = some (.orReg 0 1) := by decide
theorem test_decode_andReg : decodeTableWord 16 0b1000000000010010 = some (.andReg 0 1) := by decide
theorem test_decode_xorReg : decodeTableWord 16 0b1000000000010011 = some (.xorReg 0 1) := by decide
theorem test_decode_addReg : decodeTableWord 16 0b1000111111100100 = some (.addReg 0xF 0xE) := by decide
theorem test_decode_subReg : decodeTableWord 16 0b1000001101000101 = some (.subReg 3 4) := by decide
theorem test_decode_shr : decodeTableWord 16 0b1000101010110110 = some (.shr 0xA 0xB) := by decide
theorem test_decode_subn : decodeTableWord 16 0b1000000000010111 = some (.subn 0 1) := by decide
theorem test_decode_shl : decodeTableWord 16 0b1000011000001110 = some (.shl 6 0) := by decide
theorem test_decode_sneReg : decodeTableWord 16 0b1001000100100000 = some (.sneReg 1 2) := by decide
theorem test_decode_ldI : decodeTableWord 16 0b1010000100100011 = some (.ldI 0x123) := by decide
theorem test_decode_jpV0 : decodeTableWord 16 0b1011001100000000 = some (.jpV0 0x300) := by decide
theorem test_decode_rnd : decodeTableWord 16 0b1100001100001111 = some (.rnd 3 0x0F) := by decide
theorem test_decode_drw : decodeTableWord 16 0b1101000000010010 = some (.drw 0 1 2) := by decide
theorem test_decode_skp : decodeTableWord 16 0b1110000110011110 = some (.skp 1) := by decide
theorem test_decode_sknp : decodeTableWord 16 0b1110000110100001 = some (.sknp 1) := by decide
theorem test_decode_ldVxDT : decodeTableWord 16 0b1111010000000111 = some (.ldVxDT 4) := by decide
theorem test_decode_ldVxK : decodeTableWord 16 0b1111001100001010 = some (.ldVxK 3) := by decide
theorem test_decode_ldDT : decodeTableWord 16 0b1111010000010101 = some (.ldDT 4) := by decide
theorem test_decode_ldST : decodeTableWord 16 0b1111010000011000 = some (.ldST 4) := by decide
theorem test_decode_addI : decodeTableWord 16 0b1111001000011110 = some (.addI 2) := by decide
theorem test_decode_ldF : decodeTableWord 16 0b1111000000101001 = some (.ldF 0) := by decide
theorem test_decode_ldB : decodeTableWord 16 0b1111010100110011 = some (.ldB 5) := by decide
theorem test_decode_stRegs : decodeTableWord 16 0b1111000101010101 = some (.stRegs 1) := by decide
theorem test_decode_ldRegs : decodeTableWord 16 0b1111111101100101 = some (.ldRegs 0xF) := by decide

/-- 95_test_vectors.md section 2.1. -/
theorem test_decode_unknown :
    [0x0000, 0x00E1, 0x0123, 0x5121, 0x8128, 0x812F, 0x9121, 0xE19F, 0xF075, 0xF0FF].all
      (fun w => decodeTableWord 16 w == none) = true := by decide

/-- A single byte is no opcode (30_encoding.md R80). -/
theorem test_decode_truncated : decode [0x12] = .error .truncated := by decide

/-! ## One step per instruction (95_test_vectors.md sections 2.2 to 2.7) -/

theorem test_cls : run (State.reset.setFb (Framebuffer.allOff.toggle 63 31)) 0x00E0
    (fun t => !t.fb.get 63 31 && t.pc == 0x202) = true := by decide
theorem test_ret : run ((State.reset.push 0x204).setPc 0x208) 0x00EE (fun t => t.pc == 0x204 && t.sp == 0) = true := by
  decide
theorem test_ret_underflow : stops State.reset 0x00EE (.stackUnderflow 0x200) = true := by decide
theorem test_jp_self : run State.reset 0x1200 (fun t => t.pc == 0x200) = true := by decide
theorem test_call : run (State.reset.setPc 0x202) 0x2208
    (fun t => t.pc == 0x208 && t.sp == 1 && t.stackSlot 0 == 0x204) = true := by decide
theorem test_call_overflow : stops fullStack 0x2300 (.stackOverflow 0x200) = true := by decide
theorem test_seImm : run (two 3 0x12 0 0) 0x3312 (fun t => t.pc == 0x204) = true := by decide
theorem test_sneImm : run (two 3 0x12 0 0) 0x4312 (fun t => t.pc == 0x202) = true := by decide
theorem test_seReg : run (two 1 7 2 7) 0x5120 (fun t => t.pc == 0x204) = true := by decide
theorem test_sneReg : run (two 1 7 2 8) 0x9120 (fun t => t.pc == 0x204) = true := by decide
theorem test_ldImm_last_address : run (State.reset.setPc 0xFFE) 0x6007 (fun t => t.reg 0 == 7 && t.pc == 0x1000) = true := by
  decide
theorem test_ldImm_odd_pc : run (State.reset.setPc 0x201) 0x6ABC (fun t => t.reg 0xA == 0xBC && t.pc == 0x203) = true := by
  decide
theorem test_addImm_no_flag : run (two 2 0xFF 0xF 0x33) 0x7201 (fun t => t.reg 2 == 0 && t.reg 0xF == 0x33) = true := by
  decide
theorem test_ldReg : run (two 1 0x33 0xF 0x55) 0x8010 (fun t => t.reg 0 == 0x33 && t.reg 0xF == 0x55) = true := by decide
theorem test_orReg : run (two 0 0x0F 1 0xF0) 0x8011 (fun t => t.reg 0 == 0xFF) = true := by decide
theorem test_andReg : run (two 0 0x3C 1 0x0F) 0x8012 (fun t => t.reg 0 == 0x0C) = true := by decide
theorem test_xorReg : run (two 0 0x3C 1 0x0F) 0x8013 (fun t => t.reg 0 == 0x33) = true := by decide
theorem test_addReg_carry : run (two 0 0x80 1 0x80) 0x8014 (fun t => t.reg 0 == 0 && t.reg 0xF == 1) = true := by decide
theorem test_addReg_into_VF : run (two 0xF 0x10 1 0x20) 0x8F14 (fun t => t.reg 0xF == 0) = true := by decide
theorem test_subReg_borrow : run (two 0 5 1 0xA) 0x8015 (fun t => t.reg 0 == 0xFB && t.reg 0xF == 0) = true := by decide
theorem test_subReg_equal : run (two 0 7 1 7) 0x8015 (fun t => t.reg 0 == 0 && t.reg 0xF == 1) = true := by decide
theorem test_shr : run (two 0 0x05 1 0xFF) 0x8016 (fun t => t.reg 0 == 2 && t.reg 0xF == 1 && t.reg 1 == 0xFF) = true := by
  decide
theorem test_subn : run (two 0 0xA 1 5) 0x8017 (fun t => t.reg 0 == 0xFB && t.reg 0xF == 0) = true := by decide
theorem test_shl : run (two 0 0x81 1 0x33) 0x801E (fun t => t.reg 0 == 2 && t.reg 0xF == 1) = true := by decide
theorem test_ldI_default : run State.reset 0xA300 (fun t => t.i == 0 && t.pc == 0x202) = true := by decide
theorem test_ldI_parameter : run loadsI 0xA300 (fun t => t.i == 0x300 && t.pc == 0x202) = true := by decide
theorem test_jpV0 : run (two 0 0xFF 1 0) 0xBFFF (fun t => t.pc == 0x10FE) = true := by decide
theorem test_rnd_mask_zero : (nextIs (exec (.rnd 3 0) State.reset) fun t => t.reg 3 == 0 && t.draws == State.reset.draws + 1) = true := by
  simp [nextIs, exec, execRnd, finishReg]
theorem test_drw_wraps : run (((two 0 62 1 31).setIndex 0x300).writeBytes 0x300 [0xC0, 0x81]) 0xD012
    (fun t => t.fb.get 62 31 && t.fb.get 63 31 && t.fb.get 62 0 && t.fb.get 5 0 && !t.fb.get 5 31 && t.reg 0xF == 0) =
      true := by decide
theorem test_drw_collision : run (((at_ 0x300).writeByte 0x300 0xC0).setFb (Framebuffer.allOff.toggle 1 0)) 0xD011
    (fun t => t.fb.get 0 0 && !t.fb.get 1 0 && t.reg 0xF == 1) = true := by decide
theorem test_skp : run ((two 1 5 0 0).setKey 5 true) 0xE19E (fun t => t.pc == 0x204) = true := by decide
theorem test_sknp_no_key : stops (two 1 0x10 0 0) 0xE1A1 (.outOfBounds .key 0x10) = true := by decide
theorem test_ldVxDT : run (State.reset.setDelay 0x3C) 0xF407 (fun t => t.reg 4 == 0x3C && t.dt == 0x3C) = true := by decide
theorem test_ldVxK : run (State.reset.setPc 0x210) 0xF30A
    (fun t => t.mode == .awaitKey && t.waitReg == 3 && t.pc == 0x210) = true := by decide
theorem test_ldVxK_resume : run (State.reset.setPc 0x210) 0xF30A
    (fun t => (resume 7 t).reg 3 == 7 && (resume 7 t).pc == 0x212 && (resume 7 t).mode == .ready) = true := by decide
theorem test_ldDT : run (two 4 0x3C 0 0) 0xF415 (fun t => t.dt == 0x3C) = true := by decide
theorem test_ldST : run (two 4 0x05 0 0) 0xF418 (fun t => t.st == 0x05) = true := by decide
theorem test_addI : run ((two 2 2 0 0).setIndex 0xFFF) 0xF21E (fun t => t.i == 0x1001 && t.reg 0xF == 0) = true := by decide
theorem test_ldF_no_mask : run (two 0 0xFF 1 0) 0xF029 (fun t => t.i == 0x54B) = true := by decide
theorem test_ldB : run ((two 5 156 0 0).setIndex 0xFFD) 0xF533
    (fun t => t.readByte 0xFFD == 1 && t.readByte 0xFFE == 5 && t.readByte 0xFFF == 6) = true := by decide
theorem test_ldB_past_end : stops (at_ 0xFFE) 0xF533 (.outOfBounds .data 0xFFE) = true := by decide
theorem test_stRegs : run ((two 0 1 1 2).setIndex 0x300) 0xF155
    (fun t => t.readByte 0x300 == 1 && t.readByte 0x301 == 2 && t.readByte 0x302 == 0 && t.i == 0x300) = true := by decide
theorem test_ldRegs : run ((at_ 0x300).writeBytes 0x300 [1, 5, 6, 9]) 0xF265
    (fun t => t.reg 0 == 1 && t.reg 1 == 5 && t.reg 2 == 6 && t.reg 3 == 0 && t.i == 0x300) = true := by decide
theorem test_ldRegs_past_end : stops (at_ 0x1000) 0xF065 (.outOfBounds .data 0x1000) = true := by decide

/-! ## Memory, commands, reset -/

/-- 10_state.md R27: glyph 0 of the default font. -/
theorem test_font : State.reset.readBytes 0x04F 6 = [0x00, 0xF0, 0x90, 0x90, 0x90, 0xF0] := by decide
theorem test_font_last : State.reset.readBytes 0x09B 6 = [0xF0, 0x80, 0xF0, 0x80, 0x80, 0x00] := by decide
/-- A byte written back to what reset left is listed no more. -/
theorem test_memory_canonical : ((State.reset.writeByte 0x050 7).writeByte 0x050 0xF0).mem = [] := by decide
/-- 95_test_vectors.md section 2.7. -/
theorem test_tick : (tick ((State.reset.setDelay 1).setSound 5)).dt = 0 ∧ (tick ((State.reset.setDelay 1).setSound 5)).st = 4 := by
  decide
theorem test_tick_zero : (tick State.reset).dt = 0 := by decide
/-- 95_test_vectors.md S7. -/
theorem test_scenario_s7 : (fun t : State => (t.reg 0, t.reg 1, t.reg 0xF, t.pc))
    (runCommands [.loadProgram [0x60, 0x0A, 0x61, 0x05, 0x80, 0x14], .step, .step, .step] State.reset) =
      (15, 5, 0, 0x206) := by decide
/-- 95_test_vectors.md section 2.2: statuses of a fetch past the end, and of Annn by the parameter. -/
theorem test_status_fetch : (command .step (State.reset.setPc 0x1000)).2.status = some (.outOfBounds .fetch 0x1000) := by
  decide
theorem test_status_annn : (command .step (State.reset.placeWord 0xA300)).2.status = some (.unknownOpcode 0xA300) := by
  decide

/-! ## Witnesses: states and operands that meet the hypotheses of the statements -/

theorem witness_DecodeGivesBackEveryEncodedInstruction : Instr.wellFormed (.jp 0xFFF) = true := by decide
theorem witness_EncodeGivesBackEveryDecodedOpcode : decodeWord 0x8AB6 = .ok (.shr 0xA 0xB) := by decide
theorem witness_UnknownOpcodesAreExactlyTheListedSpace :
    unknownSpace defaultParams 0x00E1 ∧ unknownSpace defaultParams 0x512F := by decide
theorem witness_UnknownOpcodesAreExactlyTheListedSpace_89 :
    unknownSpace defaultParams 0x8128 ∧ unknownSpace defaultParams 0x9121 := by decide
theorem witness_UnknownOpcodesAreExactlyTheListedSpace_EF :
    unknownSpace defaultParams 0xE19F ∧ unknownSpace defaultParams 0xF0FF := by decide
theorem witness_UnknownOpcodesAreExactlyTheListedSpace_annn :
    unknownSpace defaultParams 0xA000 ∧ ¬ unknownSpace loadsI.params 0xA000 := by decide
theorem witness_StepRunsTheDecodedInstruction_ok :
    let s := (State.reset.setPc 0xFFE).placeWord 0x6007
    s.mode = .ready ∧ s.pc.toNat ≤ 0xFFE ∧
      decodeWord (s.readByte s.pc.toNat ++ s.readByte (s.pc.toNat + 1)) = .ok (.ldImm 0 7) := by decide
theorem witness_StepRunsTheDecodedInstruction_error :
    let s := State.reset
    s.mode = .ready ∧ s.pc.toNat ≤ 0xFFE ∧
      decodeWord (s.readByte s.pc.toNat ++ s.readByte (s.pc.toNat + 1)) = .error (.unknownOpcode 0) := by decide
theorem witness_FetchIsBigEndianOrOutOfBounds :
    (State.reset.setPc 0xFFE).pc.toNat ≤ 0xFFE ∧
    (0xFFE < (State.reset.setPc 0xFFF).pc.toNat ∧ (State.reset.setPc 0xFFF).mode = .ready) := by decide
theorem witness_StepOnUnknownOpcodeOnlyAdvances :
    (State.reset.mode = .ready ∧ fetch State.reset = .ok 0x0000 ∧ unknownSpace State.reset.params 0x0000) ∧
    ((State.reset.placeWord 0xA300).mode = .ready ∧ fetch (State.reset.placeWord 0xA300) = .ok 0xA300 ∧
      unknownSpace (State.reset.placeWord 0xA300).params 0xA300) := by decide
theorem witness_StepWhileAwaitingChangesNothing : (State.reset.awaitKey 3).mode = .awaitKey := by decide
theorem witness_RetPopsTheReturnAddress :
    State.reset.sp = 0 ∧ (State.reset.push 0x204).sp = 0 + 1 ∧ fullStack.sp = 15 + 1 := by decide
/-- For the clause on the next fetch of RetPopsTheReturnAddress, JpSetsTheCounter and JpV0AddsRegisterZero. -/
theorem witness_targets_past_the_end :
    (State.reset.push 0x1000).sp = 0 + 1 ∧ 0xFFE < ((State.reset.push 0x1000).stackSlot 0).toNat ∧
    0xFFE < (0xFFF : Word).toNat ∧ 0xFFE < ((two 0 0xFF 1 0).setPc (indexedTarget (two 0 0xFF 1 0) 0xFFF)).pc.toNat := by
  decide
theorem witness_CallPushesTheNextAddress :
    fullStack.sp = fullStack.params.stackDepth ∧
    (let s : State := { State.reset with sp := 15 }
     StateInv s ∧ s.sp < s.params.stackDepth) := by decide
theorem witness_ReturnComesBackAfterTheCall :
    StateInv State.reset ∧ State.reset.sp < State.reset.params.stackDepth ∧
    ∃ t u : State, exec (.call 0x300) State.reset = .next t ∧ u.sp = t.sp ∧
      u.stackSlot State.reset.sp = t.stackSlot State.reset.sp :=
  ⟨by decide, by decide, _, _, rfl, rfl, rfl⟩
/-- A nested call and its return, which rewrite the slot above, meet the hypotheses too. -/
theorem witness_ReturnComesBackAfterTheCall_nested :
    ∃ t u v : State, exec (.call 0x300) State.reset = .next t ∧ exec (.call 0x400) t = .next u ∧
      exec .ret u = .next v ∧ v.sp = t.sp ∧ v.stackSlot State.reset.sp = t.stackSlot State.reset.sp ∧
      v.stack ≠ t.stack :=
  ⟨_, _, _, rfl, rfl, rfl, rfl, rfl, by decide⟩
theorem witness_SpMovesByCompletedCallsLessReturns : ∀ c ∈ [Command.step, .tick, .resume 1], c ≠ .reset := by decide
/-- For AddGivesSumAndCarry, SubtractionsGiveDifferenceAndNotBorrow and ShiftsMoveOneBitIntoTheFlag. -/
theorem witness_FlagWriters_other_register : (0xE : Reg) ≠ regF ∧ ¬ ((0xF : Reg) ≠ regF) := by decide
theorem witness_BlitTogglesExactlyTheCoveredCells : (List.replicate 15 (0xFF : Byte)).length ≤ 15 := by decide
theorem witness_BlitIsItsOwnInverse : [(0x00 : Byte), 0x00].length ≤ 15 ∧ ∀ byte ∈ [(0x00 : Byte), 0x00], byte = 0 := by
  decide
/-- For the clause on a framebuffer whose covered cells are off. -/
theorem witness_BlitIsItsOwnInverse_off :
    ∀ c r, c < 64 → r < 32 → spriteCovers [0x80] 62 31 c r → Framebuffer.allOff.get c r = false := by
  intro c r _ _ _
  exact Framebuffer.get_allOff c r
/-- 43_display.md R172 by hand, with one lit pixel under a one-pixel sprite: the first blit meets it and turns it off, so
the second reads an off cell and reports none, though the sprite has a set bit (log 28). -/
theorem test_second_blit_meets_no_lit_cell :
    (blitSprite (Framebuffer.allOff.toggle 0 0) 0 0 [0x80]).2 = true ∧
    ((blitSprite (Framebuffer.allOff.toggle 0 0) 0 0 [0x80]).1.get 0 0) = false ∧
    (blitSprite (blitSprite (Framebuffer.allOff.toggle 0 0) 0 0 [0x80]).1 0 0 [0x80]).2 = false := by decide
theorem witness_SecondBlitCollidesForEverySetBit : [(0x80 : Byte)].length ≤ 15 := by decide
theorem witness_DrwDrawsTheSpriteAtI :
    ((2 : BitVec 4) ≠ 0 ∧ 0xFFF < (at_ 0xFFF).i.toNat + (2 : BitVec 4).toNat - 1) ∧
    ((1 : BitVec 4) ≠ 0 ∧ (at_ 0xFFF).i.toNat + (1 : BitVec 4).toNat - 1 ≤ 0xFFF) ∧
    ((0 : BitVec 4) = 0 ∧ (at_ 0xFFFF).i = 0xFFFF) := by decide
theorem witness_LdILoadsOnlyWithTheParameter :
    loadsI.params.annnLoadsI = true ∧ State.reset.params.annnLoadsI = false := by decide
theorem witness_LdBStoresThreeDigits :
    0xFFF < (at_ 0xFFE).i.toNat + 2 ∧ (at_ 0xFFD).i.toNat + 2 ≤ 0xFFF := by decide
theorem witness_StRegsStoresTheRange :
    0xFFF < (at_ 0xFF1).i.toNat + (0xF : Reg).toNat ∧ (at_ 0xFF0).i.toNat + (0xF : Reg).toNat ≤ 0xFFF := by decide
theorem witness_LdRegsLoadsTheRange :
    0xFFF < (at_ 0x1000).i.toNat + (0 : Reg).toNat ∧ (at_ 0xFFF).i.toNat + (0 : Reg).toNat ≤ 0xFFF := by decide
theorem witness_LoadGetsBackTheStoredRegisters :
    (at_ 0xFF0).i.toNat + (0xF : Reg).toNat ≤ 0xFFF ∧
    ∃ t u : State, exec (.stRegs 0xF) (at_ 0xFF0) = .next t ∧ u.params = t.params ∧ u.mem = t.mem ∧ u.i = t.i :=
  ⟨by decide, _, _, rfl, rfl, rfl, rfl⟩
theorem witness_StoredOpcodeIsFetchedNext :
    ((at_ 0x202).pc + 2).toNat ≤ 0xFFE ∧
    (1 : Reg) ≠ 0 ∧ (at_ 0x202).i = (at_ 0x202).pc + 2 ∧ (at_ 0x202).i.toNat + (1 : Reg).toNat ≤ 0xFFF ∧
    (at_ 0x202).i.toNat + 2 ≤ 0xFFF := by decide
/-- A store that reaches the next opcode's second byte only. -/
theorem test_stored_over_the_second_byte :
    nextIs (exec (.stRegs 0) ((two 0 0xEE 1 0).setIndex 0x203)) (fun t => t.readByte 0x202 == 0 && t.readByte 0x203 == 0xEE) =
      true := by decide
theorem witness_CanonicalMemoriesThatReadAlikeAreEqual :
    let m : Memory := [(0x300, 5), (0xFFF, 1)]
    Memory.wf defaultFont m ∧ Memory.wf defaultFont m ∧
      ∀ a, Memory.read defaultFont m a = Memory.read defaultFont m a :=
  ⟨by decide, by decide, fun _ => rfl⟩
theorem witness_KeySkipsTestTheKeyInVx :
    0xF < ((two 1 0x10 0 0).reg 1).toNat ∧ ((two 1 0xF 0 0).reg 1).toNat = (0xF : Key).toNat := by decide
theorem witness_ResumeCompletesTheKeyWait :
    let s := State.reset.placeWord 0xF30A
    s.mode = .ready ∧ fetch s = .ok 0xF30A ∧ decodeWord 0xF30A = .ok (.ldVxK 3) := by decide
theorem witness_ResumeActsOnlyWhileAwaiting :
    State.reset.mode = .ready ∧ (State.reset.awaitKey 0xF).mode = .awaitKey := by decide
/-- A step that executes Fx18 lies on a run that writes no DT, and one that executes Fx15 on a run that writes no ST. -/
theorem witness_TimersAreLessTheTicks :
    alongRun writesNoDelay [.tick, .step, .resume 1, .tick] (State.reset.placeWord 0xF418) = true ∧
    alongRun writesNoSound [.tick, .step, .resume 1, .tick] (State.reset.placeWord 0xF415) = true := by decide
theorem test_alongRun_sees_the_timer_write :
    alongRun writesNoDelay [.tick, .step] (State.reset.placeWord 0xF415) = false ∧
    alongRun writesNoSound [.tick, .step] (State.reset.placeWord 0xF418) = false := by decide
theorem witness_WaitIsEnteredByFx0AAndLeftByResumeOrReset :
    ((State.reset.awaitKey 3).mode = .awaitKey ∧ (command .reset (State.reset.awaitKey 3)).1.mode = .ready) ∧
    ((State.reset.awaitKey 3).mode = .awaitKey ∧ (command (.resume 1) (State.reset.awaitKey 3)).1.mode = .ready) ∧
    ((State.reset.placeWord 0xF30A).mode = .ready ∧ (command .step (State.reset.placeWord 0xF30A)).1.mode = .awaitKey) := by
  decide
theorem witness_FatalConditionsChangeNothing :
    (command .step (State.reset.placeWord 0x00EE)).2.status = some (.stackUnderflow 0x200) ∧
      (Status.stackUnderflow 0x200).fatal = true := by decide
theorem witness_StepReportsItsStatusAndEvent :
    (∃ f, step (State.reset.placeWord 0x00EE) = .fault f) ∧ ∃ t, step (State.reset.placeWord 0x00E0) = .next t :=
  ⟨⟨_, rfl⟩, _, rfl⟩
theorem witness_StepReportsItsStatusAndEvent_ok :
    let s := State.reset.placeWord 0x00E0
    s.mode = .ready ∧ fetch s = .ok 0x00E0 ∧ decodeWord 0x00E0 = .ok .cls ∧ (∃ t, exec .cls s = .next t) ∧
      (∀ x, Instr.cls ≠ .ldVxK x) ∧ (s.params.annnLoadsI = true ∨ ∀ nnn, Instr.cls ≠ .ldI nnn) :=
  ⟨by decide, fetch_placeWord _ _, by decide, ⟨_, rfl⟩, nofun, .inr nofun⟩
theorem witness_StepReportsItsStatusAndEvent_ldI :
    loadsI.params.annnLoadsI = true ∧ (∃ t, exec (.ldI 0x300) loadsI = .next t) ∧
    State.reset.params.annnLoadsI = false ∧ ∃ t, exec (.ldI 0x300) State.reset = .next t :=
  ⟨by decide, ⟨_, rfl⟩, by decide, _, rfl⟩
theorem witness_StepReportsItsStatusAndEvent_wait_and_unknown :
    decodeWord 0xF30A = .ok (.ldVxK 3) ∧ (∃ t, exec (.ldVxK 3) State.reset = .next t) ∧
    decodeWord 0x5121 = .error (.unknownOpcode 0x5121) := ⟨by decide, ⟨_, rfl⟩, by decide⟩
/-- For ProgramTooLargeWritesNothing and LoadProgramCopiesTheBytes. -/
theorem witness_LoadProgram_lengths :
    3584 < (List.replicate 3585 (0 : Byte)).length ∧ (List.replicate 3584 (0 : Byte)).length ≤ 3584 := by
  rw [List.length_replicate, List.length_replicate]; decide
theorem witness_VFChangesOnlyByItsWriters :
    ∃ t, exec (.addReg 0 1) (two 0 0x80 1 0x80) = .next t ∧ t.reg regF ≠ (two 0 0x80 1 0x80).reg regF :=
  ⟨_, rfl, by decide⟩
theorem witness_EachElementHasOnlyItsNamedWriters_memory :
    ∃ t, exec (.ldB 5) (two 5 156 0 0) = .next t ∧ t.mem ≠ (two 5 156 0 0).mem := ⟨_, rfl, by decide⟩
theorem witness_EachElementHasOnlyItsNamedWriters_display :
    ∃ t, exec (.drw 0 0 1) (at_ 0x050) = .next t ∧ t.fb ≠ (at_ 0x050).fb := ⟨_, rfl, by decide⟩
theorem witness_EachElementHasOnlyItsNamedWriters_index :
    ∃ t, exec (.ldF 0) State.reset = .next t ∧ t.i ≠ State.reset.i := ⟨_, rfl, by decide⟩
theorem witness_EachElementHasOnlyItsNamedWriters_stack :
    ∃ t, exec (.call 0x300) State.reset = .next t ∧ t.stack ≠ State.reset.stack ∧ t.sp ≠ State.reset.sp :=
  ⟨_, rfl, by decide, by decide⟩
theorem witness_EachElementHasOnlyItsNamedWriters_timers :
    (∃ t, exec (.ldDT 1) (two 1 5 0 0) = .next t ∧ t.dt ≠ (two 1 5 0 0).dt) ∧
    ∃ t, exec (.ldST 1) (two 1 5 0 0) = .next t ∧ t.st ≠ (two 1 5 0 0).st := ⟨⟨_, rfl, by decide⟩, _, rfl, by decide⟩
theorem witness_EachElementHasOnlyItsNamedWriters_wait :
    ∃ t, exec (.ldVxK 3) State.reset = .next t ∧ (t.mode ≠ State.reset.mode ∨ t.waitReg ≠ State.reset.waitReg) :=
  ⟨_, rfl, by decide⟩
theorem witness_EachElementHasOnlyItsNamedWriters_random :
    ∃ t, exec (.rnd 3 0xFF) State.reset = .next t ∧ t.draws ≠ State.reset.draws := ⟨_, rfl, by decide⟩
theorem witness_KeysReachOnlyTheKeySkips : ∀ x, Instr.ldVxK 3 ≠ .skp x ∧ Instr.ldVxK 3 ≠ .sknp x := by decide
theorem witness_SoundTimerReachesNoInstruction : ∀ x, Instr.ldDT 3 ≠ .ldST x := by decide
theorem witness_StateInvHoldsAfterReset : Config.Params.wf { defaultParams with stackDepth := 1 } := by decide
theorem witness_EveryStepKeepsStateInv :
    StateInv ((at_ 0x300).placeWord 0xF555) ∧ ∃ t, step ((at_ 0x300).placeWord 0xF555) = .next t :=
  ⟨by decide, _, rfl⟩
theorem witness_EveryCommandSequenceKeepsStateInv : StateInv State.reset := by decide

end Sys2Proof.Tests
end

section
/-! The unknown space and the step (30_encoding.md R84-R90, 40_step.md R105, R107). -/

namespace Sys2Proof.Machine

/-! ## What each family of the decoder rejects -/

theorem decodeFamily0_rejects_iff (op : Word) :
    decodeFamily0 op = .error (.unknownOpcode op) ↔ op ≠ 0x00E0 ∧ op ≠ 0x00EE := by
  unfold decodeFamily0
  split
  · simp_all
  · split <;> simp_all

theorem decodeFamily5_rejects_iff (op : Word) :
    decodeFamily5 op = .error (.unknownOpcode op) ↔ opN op ≠ 0x0 := by
  unfold decodeFamily5
  split <;> simp_all

/-- R87 lists the low nibbles that select; R90 lists the seven others. -/
theorem decodeFamily8_rejects_iff (op : Word) :
    decodeFamily8 op = .error (.unknownOpcode op) ↔
      opN op ∈ [0x8#4, 0x9#4, 0xA#4, 0xB#4, 0xC#4, 0xD#4, 0xF#4] := by
  have others : ∀ n : BitVec 4, n ∈ [0x8#4, 0x9#4, 0xA#4, 0xB#4, 0xC#4, 0xD#4, 0xF#4] ↔
      n ∉ [0x0#4, 0x1#4, 0x2#4, 0x3#4, 0x4#4, 0x5#4, 0x6#4, 0x7#4, 0xE#4] := by decide
  rw [others]
  unfold decodeFamily8
  split <;> simp_all

theorem decodeFamily9_rejects_iff (op : Word) :
    decodeFamily9 op = .error (.unknownOpcode op) ↔ opN op ≠ 0x0 := by
  unfold decodeFamily9
  split <;> simp_all

theorem decodeFamilyE_rejects_iff (op : Word) :
    decodeFamilyE op = .error (.unknownOpcode op) ↔ opKK op ∉ [0x9E#8, 0xA1#8] := by
  unfold decodeFamilyE
  split <;> simp_all

theorem decodeFamilyF_rejects_iff (op : Word) :
    decodeFamilyF op = .error (.unknownOpcode op) ↔
      opKK op ∉ [0x07#8, 0x0A#8, 0x15#8, 0x18#8, 0x1E#8, 0x29#8, 0x33#8, 0x55#8, 0x65#8] := by
  unfold decodeFamilyF
  split <;> simp_all

/-! ## The primary map at the families of the unknown space -/

theorem decodeWord_family0 {op : Word} (h : opN3 op = 0x0) : decodeWord op = decodeFamily0 op := by
  simp [decodeWord, h]

theorem decodeWord_family5 {op : Word} (h : opN3 op = 0x5) : decodeWord op = decodeFamily5 op := by
  simp [decodeWord, h]

theorem decodeWord_family8 {op : Word} (h : opN3 op = 0x8) : decodeWord op = decodeFamily8 op := by
  simp [decodeWord, h]

theorem decodeWord_family9 {op : Word} (h : opN3 op = 0x9) : decodeWord op = decodeFamily9 op := by
  simp [decodeWord, h]

theorem decodeWord_familyA {op : Word} (h : opN3 op = 0xA) : decodeWord op = .ok (.ldI (opNNN op)) := by
  simp [decodeWord, h]

theorem decodeWord_familyE {op : Word} (h : opN3 op = 0xE) : decodeWord op = decodeFamilyE op := by
  simp [decodeWord, h]

theorem decodeWord_familyF {op : Word} (h : opN3 op = 0xF) : decodeWord op = decodeFamilyF op := by
  simp [decodeWord, h]

/-- R90's list: the decoder rejects the opcode, or it is of the A family and ANNN_LOADS_I is false. -/
theorem decodeWord_of_unknownSpace {p : Config.Params} {op : Word} (h : unknownSpace p op) :
    decodeWord op = .error (.unknownOpcode op) ∨
      (p.annnLoadsI = false ∧ decodeWord op = .ok (.ldI (opNNN op))) := by
  rcases h with ⟨h3, h⟩ | ⟨h3, h⟩ | ⟨h3, h⟩ | ⟨h3, h⟩ | ⟨h3, h⟩ | ⟨h3, h⟩ | ⟨h3, h⟩
  · exact .inl ((decodeWord_family0 h3).trans ((decodeFamily0_rejects_iff op).mpr h))
  · exact .inl ((decodeWord_family5 h3).trans ((decodeFamily5_rejects_iff op).mpr h))
  · exact .inl ((decodeWord_family8 h3).trans ((decodeFamily8_rejects_iff op).mpr h))
  · exact .inl ((decodeWord_family9 h3).trans ((decodeFamily9_rejects_iff op).mpr h))
  · exact .inr ⟨h, decodeWord_familyA h3⟩
  · exact .inl ((decodeWord_familyE h3).trans ((decodeFamilyE_rejects_iff op).mpr h))
  · exact .inl ((decodeWord_familyF h3).trans ((decodeFamilyF_rejects_iff op).mpr h))

/-! ## A step at a fetchable `PC` -/

theorem fetch_of_pc_le (s : State) (h : s.pc.toNat ≤ 0xFFE) :
    fetch s = .ok (s.readByte s.pc.toNat ++ s.readByte (s.pc.toNat + 1)) := by
  rcases fetch_cases s with ⟨hf, -⟩ | ⟨-, hbad⟩
  · exact hf
  · omega

section Fetched

variable {s : State} {op : Word} (hm : s.mode = .ready) (hf : fetch s = .ok op)
include hm hf

theorem step_of_decodeWord_ok {i : Instr} (hd : decodeWord op = .ok i) : step s = exec i s := by
  simp only [step, hm, hf, hd]

theorem step_of_decodeWord_error {e : DecodeReject} (hd : decodeWord op = .error e) : step s = .next s.advance := by
  simp only [step, hm, hf, hd, stepUnknown, unknownOpcode]

theorem stepStatus_of_fetch : stepStatus s = opcodeStatus op s := by
  simp only [stepStatus, hm, hf]

end Fetched

theorem opcodeStatus_of_decodeWord_error {s : State} {op : Word} {e : DecodeReject} (hd : decodeWord op = .error e) :
    opcodeStatus op s = some (.unknownOpcode op) := by
  simp only [opcodeStatus, hd]

theorem opcodeStatus_of_exec_next {s t : State} {op : Word} {i : Instr} (hd : decodeWord op = .ok i)
    (hx : exec i s = .next t) : opcodeStatus op s = some (completedStatus op i s) := by
  simp only [opcodeStatus, hd, hx]

/-- Annn with ANNN_LOADS_I false is the bare advance (44_index_memory.md R190). -/
theorem exec_ldI_of_not_annnLoadsI {s : State} (h : s.params.annnLoadsI = false) (nnn : Word) :
    exec (.ldI nnn) s = .next s.advance := by
  simp [exec, execLdI, unknownOpcode, h]

theorem completedStatus_ldI_of_not_annnLoadsI {s : State} (h : s.params.annnLoadsI = false) (op nnn : Word) :
    completedStatus op (.ldI nnn) s = .unknownOpcode op := by
  simp [completedStatus, h]

theorem command_step_state_of_next {s t : State} (h : step s = .next t) : (command .step s).1 = t := by
  simp only [command, h, stateAfter]

/-- A fetched opcode of the unknown space: the bare advance, and the status that names the opcode (R107). -/
theorem step_and_opcodeStatus_of_unknownSpace {s : State} {op : Word} (hm : s.mode = .ready) (hf : fetch s = .ok op)
    (hu : unknownSpace s.params op) :
    step s = .next s.advance ∧ opcodeStatus op s = some (.unknownOpcode op) := by
  rcases decodeWord_of_unknownSpace hu with hd | ⟨hp, hd⟩
  · exact ⟨step_of_decodeWord_error hm hf hd, opcodeStatus_of_decodeWord_error hd⟩
  · have hx := exec_ldI_of_not_annnLoadsI hp (opNNN op)
    refine ⟨(step_of_decodeWord_ok hm hf hd).trans hx, ?_⟩
    rw [opcodeStatus_of_exec_next hd hx, completedStatus_ldI_of_not_annnLoadsI hp]

/-- Settles O7: the decoder rejects the opcode, or it is an Annn that loads nothing; both only advance. -/
theorem stepOnUnknownOpcodeOnlyAdvances : Obligations.StepOnUnknownOpcodeOnlyAdvances := by
  intro s op hm hf hu
  obtain ⟨hstep, hstatus⟩ := step_and_opcodeStatus_of_unknownSpace hm hf hu
  exact ⟨hstep, command_step_state_of_next hstep, (stepStatus_of_fetch hm hf).trans hstatus⟩

/-- Settles O5: the fetch answers the opcode at `PC`, and the decoder's answer on it selects the step. -/
theorem stepRunsTheDecodedInstruction : Obligations.StepRunsTheDecodedInstruction := by
  intro s hm hpc
  have hf := fetch_of_pc_le s hpc
  exact ⟨fun _ hd => step_of_decodeWord_ok hm hf hd, fun _ hd => step_of_decodeWord_error hm hf hd⟩

end Sys2Proof.Machine
end

section
/-! The skips with an immediate (41_control.md R123, R124). -/

namespace Sys2Proof.Machine

/-! ## The primary map at the families of the immediate skips -/

theorem decodeWord_family3 {op : Word} (h : opN3 op = 0x3) : decodeWord op = .ok (.seImm (opX op) (opKK op)) := by
  simp [decodeWord, h]

theorem decodeWord_family4 {op : Word} (h : opN3 op = 0x4) : decodeWord op = .ok (.sneImm (opX op) (opKK op)) := by
  simp [decodeWord, h]

/-! ## What a skip does -/

/-- `PC` is outside every frame: writing it stays within any `Touch`. -/
theorem Touch.frame_setPc (w : Touch) (s : State) (a : Word) : w.frame s (s.setPc a) := by
  simp [Touch.frame]

theorem Touch.frame_skipIf (w : Touch) (s : State) (c : Bool) : w.frame s (s.skipIf c) :=
  w.frame_setPc s _

theorem exec_seImm (x : Reg) (kk : Byte) (s : State) :
    exec (.seImm x kk) s = .next (s.skipIf (s.reg x == kk)) := rfl

theorem exec_sneImm (x : Reg) (kk : Byte) (s : State) :
    exec (.sneImm x kk) s = .next (s.skipIf (s.reg x != kk)) := rfl

/-- An instruction that only skips, on a test that decides `p`: 4 or 2 is added to `PC`, and nothing else changes. -/
theorem exec_skips_of_eq_skipIf {i : Instr} {s : State} {c : Bool} {p : Prop} [Decidable p]
    (hx : exec i s = .next (s.skipIf c)) (hc : c = true ↔ p) :
    ∃ t, exec i s = .next t ∧ t.pc = (if p then s.pc + 4 else s.pc + 2) ∧ ({} : Touch).frame s t := by
  refine ⟨s.skipIf c, hx, ?_, Touch.frame_skipIf _ s c⟩
  simp only [State.skipIf_pc, hc]

/-- Settles O12: each row's opcodes decode to it, and its meaning is a skip on the comparison of `Vx` with `kk`. -/
theorem immediateSkipsCompareTheRegister : Obligations.ImmediateSkipsCompareTheRegister := by
  refine ⟨fun _ h => decodeWord_family3 (eq_of_beq h), fun _ h => decodeWord_family4 (eq_of_beq h),
    fun x kk s => ⟨?_, ?_⟩⟩
  · exact exec_skips_of_eq_skipIf (exec_seImm x kk s) beq_iff_eq
  · exact exec_skips_of_eq_skipIf (exec_sneImm x kk s) bne_iff_ne

end Sys2Proof.Machine
end

section
/-! The immediate load, the immediate add and the register copy (42_alu.md R140-R142). -/

namespace Sys2Proof.Machine

/-! ## The decoder at their opcodes -/

theorem decodeWord_family6 {op : Word} (h : opN3 op = 0x6) : decodeWord op = .ok (.ldImm (opX op) (opKK op)) := by
  simp [decodeWord, h]

theorem decodeWord_family7 {op : Word} (h : opN3 op = 0x7) : decodeWord op = .ok (.addImm (opX op) (opKK op)) := by
  simp [decodeWord, h]

theorem decodeFamily8_ldReg {op : Word} (h : opN op = 0x0) : decodeFamily8 op = .ok (.ldReg (opX op) (opY op)) := by
  simp [decodeFamily8, h]

/-! ## Frames along an instruction's writes -/

theorem Touch.frame_refl (w : Touch) (s : State) : w.frame s s := by
  simp [Touch.frame]

section Frames

variable {w : Touch} {s t : State} (h : w.frame s t)
include h

/-- `PC` is outside every frame, so what `t` keeps, `t.advance` keeps. -/
theorem Touch.frame_advance : w.frame s t.advance := h

/-- Writing a register that `w` names stays within `w`. -/
theorem Touch.frame_setReg {x : Reg} (hx : x ∈ w.regs) (b : Byte) : w.frame s (t.setReg x b) := by
  obtain ⟨hregs, hrest⟩ := h
  refine ⟨fun r hr => ?_, hrest⟩
  have hne : x ≠ r := fun e => hr (e ▸ hx)
  rw [State.reg_setReg_other t x r b hne, hregs r hr]

end Frames

/-! ## A result in `Vx` and no flag -/

/-- What every instruction without a flag does with its result: `Vx` receives it, 2 is added to `PC`, and nothing else
changes; VF only when `x` names it (10_state.md R21, 40_step.md R106). -/
theorem finishReg_writes_only (s : State) (x : Reg) (b : Byte) :
    ∃ t, finishReg s x b = .next t ∧ t.reg x = b ∧ t.pc = s.pc + 2 ∧ ({ regs := [x] } : Touch).frame s t := by
  have hx : x ∈ ({ regs := [x] } : Touch).regs := List.mem_singleton_self x
  exact ⟨(s.setReg x b).advance, rfl, State.reg_setReg_same s x b, rfl,
    Touch.frame_advance (Touch.frame_setReg (Touch.frame_refl _ s) hx b)⟩

theorem exec_ldImm (x : Reg) (kk : Byte) (s : State) : exec (.ldImm x kk) s = finishReg s x kk := rfl

theorem exec_addImm (x : Reg) (kk : Byte) (s : State) : exec (.addImm x kk) s = finishReg s x (s.reg x + kk) := rfl

theorem exec_ldReg (x y : Reg) (s : State) : exec (.ldReg x y) s = finishReg s x (s.reg y) := rfl

/-- Settles O17: each row's opcodes decode to it, and its meaning is one result in `Vx` without a flag; the sum of the
immediate add is the 8-bit one. -/
theorem loadsAndImmediateAddWriteVx : Obligations.LoadsAndImmediateAddWriteVx := by
  refine ⟨fun _ h => decodeWord_family6 (eq_of_beq h), fun _ h => decodeWord_family7 (eq_of_beq h),
    fun op h => ?_, fun x y kk s => ⟨?_, ?_, ?_⟩⟩
  · obtain ⟨h3, h0⟩ := Bool.and_eq_true_iff.mp h
    exact (decodeWord_family8 (eq_of_beq h3)).trans (decodeFamily8_ldReg (eq_of_beq h0))
  · rw [exec_ldImm]
    exact finishReg_writes_only s x kk
  · rw [exec_addImm]
    obtain ⟨t, hnext, hreg, hkept⟩ := finishReg_writes_only s x (s.reg x + kk)
    have hsum : (t.reg x).toNat = ((s.reg x).toNat + kk.toNat) % 256 := by rw [hreg, BitVec.toNat_add]
    exact ⟨t, hnext, hsum, hkept⟩
  · rw [exec_ldReg]
    exact finishReg_writes_only s x (s.reg y)

end Sys2Proof.Machine
end

section
/-! The display: CLS, togglePixel and blitSprite (43_display.md R170-R174). -/

namespace Sys2Proof.Machine

/-! ## CLS -/

/-- Drawing stays within any `Touch` that names the display. -/
theorem Touch.frame_setFb {w : Touch} {s t : State} (h : w.frame s t) (hw : w.display = true) (f : Framebuffer) :
    w.frame s (t.setFb f) := by
  obtain ⟨hregs, hindex, hstack, hmem, hdelay, hsound, hkeys, -, hrest⟩ := h
  have hfb : w.display = false → ∀ c r, (t.setFb f).fb.get c r = s.fb.get c r := by simp [hw]
  exact ⟨hregs, hindex, hstack, hmem, hdelay, hsound, hkeys, hfb, hrest⟩

theorem exec_cls (s : State) : exec .cls s = .next (s.setFb Framebuffer.allOff).advance := rfl

/-- Settles O23: the one opcode decodes to CLS, whose only write besides `PC` is the framebuffer with every pixel off. -/
theorem clsClearsOnlyTheDisplay : Obligations.ClsClearsOnlyTheDisplay := by
  refine ⟨rfl, fun s => ⟨(s.setFb Framebuffer.allOff).advance, exec_cls s, Framebuffer.get_allOff, rfl, ?_⟩⟩
  exact Touch.frame_advance (Touch.frame_setFb (Touch.frame_refl _ s) rfl _)

/-! ## togglePixel -/

/-- A toggle seen from a cell of the grid, whose own coordinates do not wrap (43_display.md R171). -/
theorem Framebuffer.get_toggle_of_lt (f : Framebuffer) (px py : Nat) {c r : Nat} (hc : c < 64) (hr : r < 32) :
    (f.toggle px py).get c r = if px % 64 = c ∧ py % 32 = r then !f.get c r else f.get c r := by
  rw [Framebuffer.get_toggle, Nat.mod_eq_of_lt hc, Nat.mod_eq_of_lt hr]

theorem Framebuffer.get_toggle_same (f : Framebuffer) (px py : Nat) :
    (f.toggle px py).get px py = !f.get px py := by
  simp [Framebuffer.get_toggle]

/-- Settles O24: the toggle flips the wrapped cell alone, and reading that cell back gives its new state. -/
theorem togglePixelFlipsTheWrappedCell : Obligations.TogglePixelFlipsTheWrappedCell :=
  fun f px py => ⟨fun _ _ hc hr => f.get_toggle_of_lt px py hc hr, rfl, f.get_toggle_same px py⟩

/-! ## What a blit does to a set of cells -/

/-- What R172 says of a blit from `f` to `out` whose set bits cover `cells`: on the grid exactly the cells in `cells` are
toggled, and `out.2` reports whether one of them was lit in `f`. -/
def TogglesExactly (f : Framebuffer) (cells : Nat → Nat → Prop) (out : Framebuffer × Bool) : Prop :=
  (∀ c r, c < 64 → r < 32 → (out.1.get c r = true ↔
    ((f.get c r = true ∧ ¬ cells c r) ∨ (f.get c r = false ∧ cells c r)))) ∧
  (out.2 = true ↔ ∃ c r, c < 64 ∧ r < 32 ∧ cells c r ∧ f.get c r = true)

theorem TogglesExactly.congr {f : Framebuffer} {cells cells' : Nat → Nat → Prop} {out : Framebuffer × Bool}
    (h : TogglesExactly f cells out) (hcells : ∀ c r, cells' c r ↔ cells c r) : TogglesExactly f cells' out := by
  simpa only [TogglesExactly, hcells] using h

theorem togglesExactly_none (f : Framebuffer) : TogglesExactly f (fun _ _ => False) (f, false) := by
  simp [TogglesExactly]

theorem togglesExactly_toggle (f : Framebuffer) (px py : Nat) :
    TogglesExactly f (fun c r => px % 64 = c ∧ py % 32 = r) (f.toggle px py, f.get px py) := by
  refine ⟨fun c r hc hr => ?_, fun hlit => ?_, ?_⟩
  · rw [f.get_toggle_of_lt px py hc hr]
    split <;> simp [*]
  · exact ⟨px % 64, py % 32, Nat.mod_lt _ (by decide), Nat.mod_lt _ (by decide), ⟨rfl, rfl⟩,
      (f.get_mod px py).trans hlit⟩
  · rintro ⟨_, _, -, -, ⟨rfl, rfl⟩, hlit⟩
    exact (f.get_mod px py).symm.trans hlit

/-- Two parts of a blit, one after the other, act as one on the union of their cells, the collisions OR-reduced. The parts
share no cell, so the second part reads its cells as they were at the start (43_display.md R174). -/
theorem TogglesExactly.append {f : Framebuffer} {cells₁ cells₂ : Nat → Nat → Prop} {out₁ out₂ : Framebuffer × Bool}
    (h₁ : TogglesExactly f cells₁ out₁) (h₂ : TogglesExactly out₁.1 cells₂ out₂)
    (hdisjoint : ∀ c r, cells₁ c r → ¬ cells₂ c r) :
    TogglesExactly f (fun c r => cells₁ c r ∨ cells₂ c r) (out₂.1, out₁.2 || out₂.2) := by
  obtain ⟨hcells₁, hcoll₁⟩ := h₁
  obtain ⟨hcells₂, hcoll₂⟩ := h₂
  have hkept : ∀ c r, c < 64 → r < 32 → cells₂ c r → (out₁.1.get c r = true ↔ f.get c r = true) := by
    intro c r hc hr h
    have hnot : ¬ cells₁ c r := fun h' => hdisjoint c r h' h
    simp [hcells₁ c r hc hr, hnot]
  refine ⟨fun c r hc hr => ?_, ?_⟩
  · by_cases h : cells₂ c r
    · have hnot : ¬ cells₁ c r := fun h' => hdisjoint c r h' h
      simp [hcells₂ c r hc hr, ← Bool.not_eq_true, hkept c r hc hr h, h]
    · simp [hcells₂ c r hc hr, hcells₁ c r hc hr, h]
  · rw [Bool.or_eq_true, hcoll₁, hcoll₂]
    constructor
    · rintro (⟨c, r, hc, hr, h, hlit⟩ | ⟨c, r, hc, hr, h, hlit⟩)
      · exact ⟨c, r, hc, hr, .inl h, hlit⟩
      · exact ⟨c, r, hc, hr, .inr h, (hkept c r hc hr h).mp hlit⟩
    · rintro ⟨c, r, hc, hr, h | h, hlit⟩
      · exact .inl ⟨c, r, hc, hr, h, hlit⟩
      · exact .inr ⟨c, r, hc, hr, h, (hkept c r hc hr h).mpr hlit⟩

/-! ## blitSprite, bit by bit and row by row -/

/-- Bit `b` of a sprite row at `(px, py)` is set and lands on the cell. -/
def bitCovers (byte : Byte) (px py b c r : Nat) : Prop :=
  byte.getLsbD (7 - b) = true ∧ (px + b) % 64 = c ∧ py % 32 = r

/-- One of the bits `b .. b + count - 1` of a sprite row at `(px, py)` is set and lands on the cell. -/
def bitsCover (byte : Byte) (px py b count c r : Nat) : Prop :=
  ∃ j, b ≤ j ∧ j < b + count ∧ bitCovers byte px py j c r

theorem not_bitsCover_zero (byte : Byte) (px py b c r : Nat) : ¬ bitsCover byte px py b 0 c r := by
  rintro ⟨j, hlo, hhi, -⟩
  omega

theorem bitsCover_succ (byte : Byte) (px py b count c r : Nat) :
    bitsCover byte px py b (count + 1) c r ↔
      bitCovers byte px py b c r ∨ bitsCover byte px py (b + 1) count c r := by
  constructor
  · rintro ⟨j, hlo, hhi, h⟩
    rcases hlo.eq_or_lt with rfl | hlt
    · exact .inl h
    · exact .inr ⟨j, hlt, by omega, h⟩
  · rintro (h | ⟨j, hlo, hhi, h⟩)
    · exact ⟨b, by omega, by omega, h⟩
    · exact ⟨j, by omega, by omega, h⟩

theorem spriteCovers_cons (byte : Byte) (rows : List Byte) (px py c r : Nat) :
    spriteCovers (byte :: rows) px py c r ↔
      bitsCover byte px py 0 8 c r ∨ spriteCovers rows px (py + 1) c r := by
  constructor
  · rintro ⟨_ | k, b, hk, hb, hbit, hcol, hrow⟩
    · exact .inl ⟨b, by omega, by omega, hbit, hcol, hrow⟩
    · exact .inr ⟨k, b, Nat.lt_of_succ_lt_succ hk, hb, hbit, hcol, by omega⟩
  · rintro (⟨b, -, hb, hbit, hcol, hrow⟩ | ⟨k, b, hk, hb, hbit, hcol, hrow⟩)
    · exact ⟨0, b, Nat.succ_pos _, by omega, hbit, hcol, hrow⟩
    · exact ⟨k + 1, b, Nat.succ_lt_succ hk, hb, hbit, hcol, by omega⟩

theorem blitBit_togglesExactly (f : Framebuffer) (px py : Nat) (byte : Byte) (b : Nat) :
    TogglesExactly f (bitCovers byte px py b) (blitBit f px py byte b) := by
  unfold blitBit
  split
  · next hset => exact (togglesExactly_toggle f (px + b) py).congr fun _ _ => by simp [bitCovers, hset]
  · next hclear => exact (togglesExactly_none f).congr fun _ _ => by simp [bitCovers, hclear]

/-- As many bits as the grid has columns land on distinct columns. -/
theorem blitBits_togglesExactly (f : Framebuffer) (px py : Nat) (byte : Byte) (b count : Nat) (hcount : count ≤ 64) :
    TogglesExactly f (bitsCover byte px py b count) (blitBits f px py byte b count) := by
  induction count generalizing f b with
  | zero => exact (togglesExactly_none f).congr fun c r => iff_false_intro (not_bitsCover_zero byte px py b c r)
  | succ count ih =>
    have hfirst := blitBit_togglesExactly f px py byte b
    have hrest := ih (blitBit f px py byte b).1 (b + 1) (by omega)
    refine (hfirst.append hrest ?_).congr (bitsCover_succ byte px py b count)
    rintro c r ⟨-, hcol, -⟩ ⟨j, hlo, hhi, -, hcol', -⟩
    omega

theorem blitRow_togglesExactly (f : Framebuffer) (px py : Nat) (byte : Byte) :
    TogglesExactly f (bitsCover byte px py 0 8) (blitRow f px py byte) :=
  blitBits_togglesExactly f px py byte 0 8 (by decide)

/-- As many sprite rows as the grid has rows land on distinct rows; R172 asks for at most 15. -/
theorem blitSprite_togglesExactly (f : Framebuffer) (px py : Nat) (sprite : List Byte) (hlen : sprite.length ≤ 32) :
    TogglesExactly f (spriteCovers sprite px py) (blitSprite f px py sprite) := by
  induction sprite generalizing f py with
  | nil => exact (togglesExactly_none f).congr fun _ _ => by simp [spriteCovers]
  | cons byte rows ih =>
    have hrows : rows.length + 1 ≤ 32 := hlen
    have hfirst := blitRow_togglesExactly f px py byte
    have hrest := ih (blitRow f px py byte).1 (py + 1) (by omega)
    refine (hfirst.append hrest ?_).congr (spriteCovers_cons byte rows px py)
    rintro c r ⟨b, -, -, -, -, hrow⟩ ⟨k, b', hk, -, -, -, hrow'⟩
    omega

/-- Settles O25: the blit is its rows' and bits' toggles in order, and no two of them meet in a cell. -/
theorem blitTogglesExactlyTheCoveredCells : Obligations.BlitTogglesExactlyTheCoveredCells :=
  fun f px py sprite hlen => blitSprite_togglesExactly f px py sprite (by omega)

end Sys2Proof.Machine
end

section
/-! The add to the index register (44_index_memory.md R191). -/

namespace Sys2Proof.Machine

theorem decodeFamilyF_addI {op : Word} (h : opKK op = 0x1E) : decodeFamilyF op = .ok (.addI (opX op)) := by
  simp [decodeFamilyF, h]

/-- Writing `I` stays within any `Touch` that names it. -/
theorem Touch.frame_setIndex {w : Touch} {s t : State} (h : w.frame s t) (hw : w.index = true) (a : Word) :
    w.frame s (t.setIndex a) := by
  obtain ⟨hregs, -, hrest⟩ := h
  have hindex : w.index = false → (t.setIndex a).i = s.i := by simp [hw]
  exact ⟨hregs, hindex, hrest⟩

/-- The sum with a zero-extended byte wraps at the 16 bits of the word alone (44_index_memory.md R191). -/
theorem toNat_add_toWord (a : Word) (b : Byte) : (a + b.toWord).toNat = (a.toNat + b.toNat) % 65536 := by
  rw [BitVec.toNat_add, BitVec.toNat_setWidth_of_le (by decide)]

theorem exec_addI (x : Reg) (s : State) :
    exec (.addI x) s = .next (s.setIndex (s.i + (s.reg x).toWord)).advance := rfl

/-- Settles O30: the row's opcodes decode to it, and its one write besides `PC` is the 16-bit sum in `I`. -/
theorem addIWrapsAtSixteenBits : Obligations.AddIWrapsAtSixteenBits := by
  refine ⟨fun op h => ?_, fun x s => ?_⟩
  · obtain ⟨h3, hkk⟩ := Bool.and_eq_true_iff.mp h
    exact (decodeWord_familyF (eq_of_beq h3)).trans (decodeFamilyF_addI (eq_of_beq hkk))
  · exact ⟨(s.setIndex (s.i + (s.reg x).toWord)).advance, exec_addI x s, toNat_add_toWord s.i (s.reg x), rfl,
      Touch.frame_advance (Touch.frame_setIndex (Touch.frame_refl _ s) rfl _)⟩

end Sys2Proof.Machine
end

section
/-! The timer loads and the key setter (45_timers_keys.md R212, R214-R216). -/

namespace Sys2Proof.Machine

/-! ## The decoder at the opcodes of the timer loads -/

/-- A row of the F family is selected by its low byte (30_encoding.md R89). -/
theorem encodedAs_familyF {kk : Byte} {fields : Word → Instr}
    (hrow : ∀ op, opKK op = kk → decodeFamilyF op = .ok (fields op)) :
    encodedAs (fun op => opN3 op == 0xF && opKK op == kk) fields := by
  intro op h
  obtain ⟨h3, hkk⟩ := Bool.and_eq_true_iff.mp h
  exact (decodeWord_familyF (eq_of_beq h3)).trans (hrow op (eq_of_beq hkk))

theorem decodeFamilyF_ldVxDT {op : Word} (h : opKK op = 0x07) : decodeFamilyF op = .ok (.ldVxDT (opX op)) := by
  simp [decodeFamilyF, h]

theorem decodeFamilyF_ldDT {op : Word} (h : opKK op = 0x15) : decodeFamilyF op = .ok (.ldDT (opX op)) := by
  simp [decodeFamilyF, h]

theorem decodeFamilyF_ldST {op : Word} (h : opKK op = 0x18) : decodeFamilyF op = .ok (.ldST (opX op)) := by
  simp [decodeFamilyF, h]

/-! ## What the timer loads write -/

/-- Writing DT stays within any `Touch` that names it. -/
theorem Touch.frame_setDelay {w : Touch} {s t : State} (h : w.frame s t) (hw : w.delay = true) (b : Byte) :
    w.frame s (t.setDelay b) := by
  obtain ⟨hregs, hindex, hstack, hmem, -, hrest⟩ := h
  have hdelay : w.delay = false → (t.setDelay b).dt = s.dt := by simp [hw]
  exact ⟨hregs, hindex, hstack, hmem, hdelay, hrest⟩

/-- Writing ST stays within any `Touch` that names it. -/
theorem Touch.frame_setSound {w : Touch} {s t : State} (h : w.frame s t) (hw : w.sound = true) (b : Byte) :
    w.frame s (t.setSound b) := by
  obtain ⟨hregs, hindex, hstack, hmem, hdelay, -, hrest⟩ := h
  have hsound : w.sound = false → (t.setSound b).st = s.st := by simp [hw]
  exact ⟨hregs, hindex, hstack, hmem, hdelay, hsound, hrest⟩

/-- The read of DT is a result in `Vx` without a flag. -/
theorem exec_ldVxDT (x : Reg) (s : State) : exec (.ldVxDT x) s = finishReg s x s.dt := rfl

theorem exec_ldDT (x : Reg) (s : State) : exec (.ldDT x) s = .next (s.setDelay (s.reg x)).advance := rfl

theorem exec_ldST (x : Reg) (s : State) : exec (.ldST x) s = .next (s.setSound (s.reg x)).advance := rfl

/-- Settles O38: each row's opcodes decode to it, and its one write besides `PC` is the byte moved, into `Vx`, DT or
ST. -/
theorem timerLoadsMoveTheByte : Obligations.TimerLoadsMoveTheByte := by
  refine ⟨encodedAs_familyF fun _ => decodeFamilyF_ldVxDT, encodedAs_familyF fun _ => decodeFamilyF_ldDT,
    encodedAs_familyF fun _ => decodeFamilyF_ldST, fun x s => ⟨?_, ?_, ?_⟩⟩
  · rw [exec_ldVxDT]
    exact finishReg_writes_only s x s.dt
  · exact ⟨(s.setDelay (s.reg x)).advance, exec_ldDT x s, rfl, rfl,
      Touch.frame_advance (Touch.frame_setDelay (Touch.frame_refl _ s) rfl _)⟩
  · exact ⟨(s.setSound (s.reg x)).advance, exec_ldST x s, rfl, rfl,
      Touch.frame_advance (Touch.frame_setSound (Touch.frame_refl _ s) rfl _)⟩

/-! ## setKeyState -/

theorem command_setKeyState (k : Key) (p : Bool) (s : State) :
    command (.setKeyState k p) s = (s.setKey k p, replyOk) := rfl

/-- Settles O43: the command is the write of the one flag, answered with status OK. -/
theorem setKeyStateWritesOneFlag : Obligations.SetKeyStateWritesOneFlag := by
  intro s k p
  rw [command_setKeyState]
  exact ⟨fun q => s.keyDown_setKey k q p, rfl, rfl⟩

end Sys2Proof.Machine
end

section
/-! The refusal of loadProgram (20_memory.md R70, 60_exceptions.md R231, R232). -/

namespace Sys2Proof.Machine

/-- A load that completes answers OK with the loaded state. -/
theorem command_loadProgram_of_next {bytes : List Byte} {s t : State} (h : loadProgram bytes s = .next t) :
    command (.loadProgram bytes) s = (t, replyOk) := by
  simp only [command, h, stateAfter, loadReply]

/-- A load that raises answers the condition's status and leaves the state as it was (60_exceptions.md R232). -/
theorem command_loadProgram_of_fault {bytes : List Byte} {s : State} {f : Fault}
    (h : loadProgram bytes s = .fault f) :
    command (.loadProgram bytes) s = (s, { status := some (faultStatus f), event := none, value := none }) := by
  simp only [command, h, stateAfter, loadReply]

/-- Settles O49: a program that fits is answered OK, and a longer one its length, with the state unchanged. -/
theorem programTooLargeWritesNothing : Obligations.ProgramTooLargeWritesNothing := by
  intro bytes s
  rcases loadProgram_cases bytes s with ⟨hload, hfits⟩ | ⟨hload, hlong⟩
  · rw [command_loadProgram_of_next hload]
    have hshort : ¬ 3584 < bytes.length := Nat.not_lt.mpr hfits
    exact ⟨iff_of_false nofun hshort, fun hlong => absurd hlong hshort⟩
  · rw [command_loadProgram_of_fault hload]
    exact ⟨iff_of_true rfl hlong, fun _ => rfl⟩

end Sys2Proof.Machine
end

section
/-! The decoder and the encoder are inverse to each other, and what the decoder rejects (30_encoding.md R80-R90). -/

namespace Sys2Proof.Machine

/-! ## Decoding an encoded instruction -/

/-- By format: an encoded word's variable fields are the operands put in, and its fixed ones select the row again. -/
theorem decodeWord_encode {i : Instr} (h : i.wellFormed = true) : decodeWord (encode i) = .ok i := by
  cases i with
  | cls | ret => rfl
  | jp nnn | call nnn | ldI nnn | jpV0 nnn =>
    simp only [encode, decodeWord, opN3_encodeNNN, opNNN_encodeNNN _ nnn h]
  | seImm | sneImm | ldImm | addImm | rnd =>
    simp only [encode, decodeWord, opN3_encodeXKK, opX_encodeXKK, opKK_encodeXKK]
  | seReg | sneReg =>
    simp only [encode, decodeWord, decodeFamily5, decodeFamily9, opN3_encodeXYN, opX_encodeXYN, opY_encodeXYN,
      opN_encodeXYN, if_true]
  | ldReg | orReg | andReg | xorReg | addReg | subReg | shr | subn | shl | drw =>
    simp only [encode, decodeWord, decodeFamily8, opN3_encodeXYN, opX_encodeXYN, opY_encodeXYN, opN_encodeXYN]
  | skp | sknp =>
    simp only [encode, decodeWord, decodeFamilyE, opN3_encodeXKK, opX_encodeXKK, opKK_encodeXKK]
  | ldVxDT | ldVxK | ldDT | ldST | addI | ldF | ldB | stRegs | ldRegs =>
    simp only [encode, decodeWord, decodeFamilyF, opN3_encodeXKK, opX_encodeXKK, opKK_encodeXKK]

/-- Settles O2: the byte decoder takes the word's two bytes, and the word decodes to the instruction. -/
theorem decodeGivesBackEveryEncodedInstruction : Obligations.DecodeGivesBackEveryEncodedInstruction := by
  intro i rest h
  rw [encodeBytes, decode_wordBytes, decodeWord_encode h]

/-! ## Encoding a decoded opcode -/

theorem encodeXYN_of_fields {op : Word} {a n : BitVec 4} (h3 : opN3 op = a) (h0 : opN op = n) :
    encodeXYN a (opX op) (opY op) n = op := by
  rw [← h3, ← h0, encodeXYN_fields]

theorem encodeXKK_of_fields {op : Word} {a : BitVec 4} {kk : Byte} (h3 : opN3 op = a) (hkk : opKK op = kk) :
    encodeXKK a (opX op) kk = op := by
  rw [← h3, ← hkk, encodeXKK_fields]

theorem encodeNNN_of_fields {op : Word} {a : BitVec 4} (h3 : opN3 op = a) : encodeNNN a (opNNN op) = op := by
  rw [← h3, encodeNNN_fields]

/-- The opcode is the encoding of the well-formed instruction, with no bit dropped (30_encoding.md R81). -/
def IsEncodingOf (op : Word) (i : Instr) : Prop := encode i = op ∧ i.wellFormed = true

theorem isEncodingOf_family0 {op : Word} {i : Instr} (h : decodeFamily0 op = .ok i) : IsEncodingOf op i := by
  unfold decodeFamily0 at h
  split at h
  · next hop => cases h; exact ⟨hop.symm, rfl⟩
  · split at h
    · next hop => cases h; exact ⟨hop.symm, rfl⟩
    · cases h

theorem isEncodingOf_family5 {op : Word} {i : Instr} (h3 : opN3 op = 0x5) (h : decodeFamily5 op = .ok i) :
    IsEncodingOf op i := by
  unfold decodeFamily5 at h
  split at h
  · next h0 => cases h; exact ⟨encodeXYN_of_fields h3 h0, rfl⟩
  · cases h

theorem isEncodingOf_family9 {op : Word} {i : Instr} (h3 : opN3 op = 0x9) (h : decodeFamily9 op = .ok i) :
    IsEncodingOf op i := by
  unfold decodeFamily9 at h
  split at h
  · next h0 => cases h; exact ⟨encodeXYN_of_fields h3 h0, rfl⟩
  · cases h

theorem isEncodingOf_family8 {op : Word} {i : Instr} (h3 : opN3 op = 0x8) (h : decodeFamily8 op = .ok i) :
    IsEncodingOf op i := by
  unfold decodeFamily8 at h
  split at h <;> cases h
  all_goals next h0 => exact ⟨encodeXYN_of_fields h3 h0, rfl⟩

theorem isEncodingOf_familyE {op : Word} {i : Instr} (h3 : opN3 op = 0xE) (h : decodeFamilyE op = .ok i) :
    IsEncodingOf op i := by
  unfold decodeFamilyE at h
  split at h <;> cases h
  all_goals next hkk => exact ⟨encodeXKK_of_fields h3 hkk, rfl⟩

theorem isEncodingOf_familyF {op : Word} {i : Instr} (h3 : opN3 op = 0xF) (h : decodeFamilyF op = .ok i) :
    IsEncodingOf op i := by
  unfold decodeFamilyF at h
  split at h <;> cases h
  all_goals next hkk => exact ⟨encodeXKK_of_fields h3 hkk, rfl⟩

/-- Settles O3: the decoder answers a row only for its fixed fields, and takes the operands from the others, so the
opcode is the row's fields put together again. -/
theorem encodeGivesBackEveryDecodedOpcode : Obligations.EncodeGivesBackEveryDecodedOpcode := by
  intro op i h
  unfold decodeWord at h
  split at h -- `h_1` to `h_16` are the families 0 to F, and `h_17` the impossible rest
  case h_1 => exact isEncodingOf_family0 h
  case h_6 h3 => exact isEncodingOf_family5 h3 h
  case h_9 h3 => exact isEncodingOf_family8 h3 h
  case h_10 h3 => exact isEncodingOf_family9 h3 h
  case h_15 h3 => exact isEncodingOf_familyE h3 h
  case h_16 h3 => exact isEncodingOf_familyF h3 h
  case h_2 h3 | h_3 h3 | h_11 h3 | h_12 h3 => cases h; exact ⟨encodeNNN_of_fields h3, addressFits_opNNN op⟩
  case h_4 h3 | h_5 h3 | h_7 h3 | h_8 h3 | h_13 h3 => cases h; exact ⟨encodeXKK_of_fields h3 rfl, rfl⟩
  case h_14 h3 => cases h; exact ⟨encodeXYN_of_fields h3 rfl, rfl⟩
  case h_17 => cases h

/-! ## What the decoder rejects -/

theorem opN3_of_decodeWord_ldI {op nnn : Word} (h : decodeWord op = .ok (.ldI nnn)) : opN3 op = 0xA := by
  obtain ⟨hop, -⟩ := encodeGivesBackEveryDecodedOpcode op _ h
  rw [← hop]
  exact opN3_encodeNNN 0xA nnn

/-- Family by family: a rejected opcode stands in R90's list, and the other families reject none. -/
theorem unknownSpace_of_decodeWord_rejects (p : Config.Params) {op : Word}
    (h : decodeWord op = .error (.unknownOpcode op)) : unknownSpace p op := by
  unfold decodeWord at h
  split at h
  case h_1 h3 => exact .inl ⟨h3, (decodeFamily0_rejects_iff op).mp h⟩
  case h_6 h3 => exact .inr (.inl ⟨h3, (decodeFamily5_rejects_iff op).mp h⟩)
  case h_9 h3 => exact .inr (.inr (.inl ⟨h3, (decodeFamily8_rejects_iff op).mp h⟩))
  case h_10 h3 => exact .inr (.inr (.inr (.inl ⟨h3, (decodeFamily9_rejects_iff op).mp h⟩)))
  case h_15 h3 => exact .inr (.inr (.inr (.inr (.inr (.inl ⟨h3, (decodeFamilyE_rejects_iff op).mp h⟩)))))
  case h_16 h3 => exact .inr (.inr (.inr (.inr (.inr (.inr ⟨h3, (decodeFamilyF_rejects_iff op).mp h⟩)))))
  case h_17 =>
    have hall : ∀ n : BitVec 4, n ∈ [0x0#4, 0x1#4, 0x2#4, 0x3#4, 0x4#4, 0x5#4, 0x6#4, 0x7#4, 0x8#4, 0x9#4, 0xA#4,
        0xB#4, 0xC#4, 0xD#4, 0xE#4, 0xF#4] := by decide
    have hfamily := hall (opN3 op)
    simp_all
  all_goals cases h

/-- Settles O4: what the decoder rejects is listed, and an opcode that decodes to Annn is of the A family. -/
theorem unknownOpcodesAreExactlyTheListedSpace : Obligations.UnknownOpcodesAreExactlyTheListedSpace := by
  refine fun p op => ⟨?_, decodeWord_of_unknownSpace⟩
  rintro (h | ⟨hp, h⟩)
  · exact unknownSpace_of_decodeWord_rejects p h
  · exact .inr (.inr (.inr (.inr (.inl ⟨opN3_of_decodeWord_ldI h, hp⟩))))

/-- Settles O1: each of the words is decoded by evaluation. -/
theorem decodesWordsOfTheSpec : Obligations.DecodesWordsOfTheSpec := by
  unfold Obligations.DecodesWordsOfTheSpec
  decide

/-! ## The rows of the opcode table, by format -/

theorem decodeWord_of_encode_eq {i : Instr} {op : Word} (h : encode i = op) (hwf : i.wellFormed = true) :
    decodeWord op = .ok i := by
  rw [← h, decodeWord_encode hwf]

/-- A row of format NNN is selected by its family (30_encoding.md R81, R85). -/
theorem encodedAs_NNN {a : BitVec 4} {f : Word → Instr} (hrow : ∀ nnn, encode (f nnn) = encodeNNN a nnn)
    (hwf : ∀ nnn, (f nnn).wellFormed = addressFits nnn) :
    encodedAs (fun op => opN3 op == a) (fun op => f (opNNN op)) := by
  intro op h
  exact decodeWord_of_encode_eq ((hrow _).trans (encodeNNN_of_fields (eq_of_beq h)))
    ((hwf _).trans (addressFits_opNNN op))

/-- A row of format XY is selected by its family and its low nibble (30_encoding.md R81, R87). -/
theorem encodedAs_XYN {a n : BitVec 4} {f : Reg → Reg → Instr} (hrow : ∀ x y, encode (f x y) = encodeXYN a x y n)
    (hwf : ∀ x y, (f x y).wellFormed = true) :
    encodedAs (fun op => opN3 op == a && opN op == n) (fun op => f (opX op) (opY op)) := by
  intro op h
  obtain ⟨h3, h0⟩ := Bool.and_eq_true_iff.mp h
  exact decodeWord_of_encode_eq ((hrow _ _).trans (encodeXYN_of_fields (eq_of_beq h3) (eq_of_beq h0))) (hwf _ _)

/-- A row of the families E and F is selected by its low byte (30_encoding.md R88, R89). -/
theorem encodedAs_XKK {a : BitVec 4} {kk : Byte} {f : Reg → Instr} (hrow : ∀ x, encode (f x) = encodeXKK a x kk)
    (hwf : ∀ x, (f x).wellFormed = true) :
    encodedAs (fun op => opN3 op == a && opKK op == kk) (fun op => f (opX op)) := by
  intro op h
  obtain ⟨h3, hkk⟩ := Bool.and_eq_true_iff.mp h
  exact decodeWord_of_encode_eq ((hrow _).trans (encodeXKK_of_fields (eq_of_beq h3) (eq_of_beq hkk))) (hwf _)

end Sys2Proof.Machine
end

section
/-! What a completed instruction can have done, said once: the kind of its write, the registers, and the frame. -/

namespace Sys2Proof.Machine

/-! ## The meaning of each instruction -/

section Meanings

variable (x y : Reg) (nnn : Word) (s : State)

theorem exec_ret : exec .ret s =
    if s.sp = 0 then .fault (.stackUnderflow s.pc) else .next (s.pop.setPc (s.stackSlot (s.sp - 1))) := rfl

theorem exec_jp : exec (.jp nnn) s = .next (s.setPc nnn) := rfl

theorem exec_call : exec (.call nnn) s =
    if s.sp = s.params.stackDepth then .fault (.stackOverflow s.pc)
    else .next ((s.push (s.pc + 2)).setPc nnn) := rfl

theorem exec_seReg : exec (.seReg x y) s = .next (s.skipIf (s.reg x == s.reg y)) := rfl

theorem exec_sneReg : exec (.sneReg x y) s = .next (s.skipIf (s.reg x != s.reg y)) := rfl

theorem exec_orReg : exec (.orReg x y) s = finishReg s x (s.reg x ||| s.reg y) := rfl

theorem exec_andReg : exec (.andReg x y) s = finishReg s x (s.reg x &&& s.reg y) := rfl

theorem exec_xorReg : exec (.xorReg x y) s = finishReg s x (s.reg x ^^^ s.reg y) := rfl

theorem exec_addReg : exec (.addReg x y) s =
    finishFlag s x (s.reg x + s.reg y) (carryFlag (s.reg x) (s.reg y)) := rfl

theorem exec_subReg : exec (.subReg x y) s =
    finishFlag s x (s.reg x - s.reg y) (notBorrowFlag (s.reg x) (s.reg y)) := rfl

theorem exec_shr : exec (.shr x y) s = finishFlag s x (s.reg x >>> 1) (lowBitFlag (s.reg x)) := rfl

theorem exec_subn : exec (.subn x y) s =
    finishFlag s x (s.reg y - s.reg x) (notBorrowFlag (s.reg y) (s.reg x)) := rfl

theorem exec_shl : exec (.shl x y) s = finishFlag s x (s.reg x <<< 1) (highBitFlag (s.reg x)) := rfl

theorem exec_ldI_of_annnLoadsI (h : s.params.annnLoadsI = true) :
    exec (.ldI nnn) s = .next (s.setIndex nnn).advance := by
  simp [exec, execLdI, h]

theorem exec_jpV0 : exec (.jpV0 nnn) s = .next (s.setPc (indexedTarget s nnn)) := rfl

theorem exec_rnd (kk : Byte) : exec (.rnd x kk) s = finishReg s.drawn x (Config.randomByte s.draws &&& kk) := rfl

theorem exec_drw (n : BitVec 4) : exec (.drw x y n) s = withDataRange s n.toNat
    (.next ((s.setFb (drawSprite s x y n).1).setReg regF (flagByte (drawSprite s x y n).2)).advance) := rfl

theorem exec_skp : exec (.skp x) s = withKey s x fun k => .next (s.skipIf (s.keyDown k)) := rfl

theorem exec_sknp : exec (.sknp x) s = withKey s x fun k => .next (s.skipIf (!s.keyDown k)) := rfl

theorem exec_ldVxK : exec (.ldVxK x) s = .next (s.awaitKey x) := rfl

theorem exec_ldF : exec (.ldF x) s = .next (s.setIndex (glyphAddress (s.reg x))).advance := rfl

theorem exec_ldB : exec (.ldB x) s =
    withDataRange s 3 (.next (storeIndexed s (bcdDigits (s.reg x))).advance) := rfl

theorem exec_stRegs : exec (.stRegs x) s =
    withDataRange s (x.toNat + 1) (.next (storeIndexed s (regRange s x)).advance) := rfl

theorem exec_ldRegs : exec (.ldRegs x) s =
    withDataRange s (x.toNat + 1) (.next (s.writeRegs 0 (indexedBytes s (x.toNat + 1))).advance) := rfl

end Meanings

/-! ## The kinds of write -/

/-- What a completed instruction can have done, by the kind of its write. -/
inductive Effect (s : State) : Instr → State → Prop
  /-- Registers and `PC` at most; the instruction is no call and no return. -/
  | registers (i : Instr) (v : Vector Byte 16) (pc : Word) (hcalls : callDelta i = 0) :
      Effect s i { s with v := v, pc := pc }
  /-- A call with room (41_control.md R122). -/
  | call (nnn : Word) (hroom : s.sp ≠ s.params.stackDepth) : Effect s (.call nnn) ((s.push (s.pc + 2)).setPc nnn)
  /-- A return on a stack that is not empty (41_control.md R120). -/
  | ret (hsome : s.sp ≠ 0) : Effect s .ret (s.pop.setPc (s.stackSlot (s.sp - 1)))
  /-- A load of `I`. -/
  | index (i : Instr) (a pc : Word) (hi : (∃ nnn, i = .ldI nnn) ∨ ∃ x, i = .addI x ∨ i = .ldF x) :
      Effect s i ((s.setIndex a).setPc pc)
  /-- A write of the framebuffer, and of VF. -/
  | display (i : Instr) (v : Vector Byte 16) (f : Framebuffer) (pc : Word)
      (hi : i = .cls ∨ ∃ x y n, i = .drw x y n) : Effect s i { s with v := v, fb := f, pc := pc }
  /-- A store that passed its range check (20_memory.md R64). -/
  | store (i : Instr) (bytes : List Byte) (hi : ∃ x, i = .ldB x ∨ i = .stRegs x)
      (hrange : s.i.toNat + bytes.length ≤ 0x1000) : Effect s i (storeIndexed s bytes).advance
  /-- A write of DT. -/
  | delay (x : Reg) (b : Byte) : Effect s (.ldDT x) (s.setDelay b).advance
  /-- A write of ST. -/
  | sound (x : Reg) (b : Byte) : Effect s (.ldST x) (s.setSound b).advance
  /-- The start of a key wait. -/
  | wait (x : Reg) : Effect s (.ldVxK x) (s.awaitKey x)
  /-- A draw, with its result in a register. -/
  | draw (x : Reg) (kk b : Byte) : Effect s (.rnd x kk) (s.drawn.setReg x b).advance

/-- A key skip that completes passed its check (45_timers_keys.md R217). -/
theorem withKey_next {s t : State} {x : Reg} {body : Key → Result} (h : withKey s x body = .next t) :
    body ((s.reg x).setWidth 4) = .next t := by
  rcases withKey_cases s x body with ⟨hkey, -⟩ | ⟨hkey, -⟩
  · exact hkey.symm.trans h
  · cases hkey.symm.trans h

theorem writeRegs_advance_eq (s : State) (j : Nat) (bytes : List Byte) :
    (s.writeRegs j bytes).advance = { s with v := (s.writeRegs j bytes).v, pc := s.pc + 2 } := by
  rw [State.writeRegs_eq]
  rfl

/-- Every completed instruction has one of the effects: the checks it passed are the effect's own hypotheses. -/
theorem effect_of_exec_next {i : Instr} {s t : State} (h : exec i s = .next t) : Effect s i t := by
  cases i with
  | cls => cases h; exact .display _ _ _ _ (.inl rfl)
  | ret =>
    rw [exec_ret] at h
    split at h <;> cases h
    exact .ret ‹_›
  | call nnn =>
    rw [exec_call] at h
    split at h <;> cases h
    exact .call nnn ‹_›
  | jp | jpV0 | seImm | sneImm | seReg | sneReg | ldImm | addImm | ldReg | orReg | andReg | xorReg | addReg | subReg
  | shr | subn | shl | ldVxDT => cases h; exact .registers _ _ _ rfl
  | ldI nnn =>
    cases hp : s.params.annnLoadsI with
    | true => cases (exec_ldI_of_annnLoadsI nnn s hp).symm.trans h; exact .index _ _ _ (.inl ⟨nnn, rfl⟩)
    | false => cases (exec_ldI_of_not_annnLoadsI hp nnn).symm.trans h; exact .registers _ _ _ rfl
  | addI x => cases h; exact .index _ _ _ (.inr ⟨x, .inl rfl⟩)
  | ldF x => cases h; exact .index _ _ _ (.inr ⟨x, .inr rfl⟩)
  | rnd x kk => cases h; exact .draw x kk _
  | drw x y n =>
    obtain ⟨hbody, -⟩ := withDataRange_next s t _ _ h
    cases hbody
    exact .display _ _ _ _ (.inr ⟨x, y, n, rfl⟩)
  | skp x | sknp x =>
    simp only [exec_skp, exec_sknp] at h
    cases withKey_next h
    exact .registers _ _ _ rfl
  | ldVxK x => cases h; exact .wait x
  | ldDT x => cases h; exact .delay x _
  | ldST x => cases h; exact .sound x _
  | ldB x =>
    obtain ⟨hbody, hrange⟩ := withDataRange_next s t _ _ h
    cases hbody
    exact .store _ _ ⟨x, .inl rfl⟩ (by rw [bcdDigits_length]; omega)
  | stRegs x =>
    obtain ⟨hbody, hrange⟩ := withDataRange_next s t _ _ h
    cases hbody
    exact .store _ _ ⟨x, .inr rfl⟩ (by rw [regRange_length]; omega)
  | ldRegs x =>
    obtain ⟨hbody, -⟩ := withDataRange_next s t _ _ h
    cases hbody
    rw [writeRegs_advance_eq]
    exact .registers _ _ _ rfl

/-! ## What each instruction may write -/

/-- What an instruction may change besides `PC`, from a given state. -/
def touchOf (i : Instr) (s : State) : Touch :=
  match i with
  | .jp _ | .jpV0 _ | .seImm _ _ | .sneImm _ _ | .seReg _ _ | .sneReg _ _ | .skp _ | .sknp _ => {}
  | .cls => { display := true }
  | .ret | .call _ => { stack := true }
  | .ldImm x _ | .addImm x _ | .ldReg x _ | .orReg x _ | .andReg x _ | .xorReg x _ | .ldVxDT x => { regs := [x] }
  | .addReg x _ | .subReg x _ | .shr x _ | .subn x _ | .shl x _ => { regs := [x, regF] }
  | .ldI _ | .addI _ | .ldF _ => { index := true }
  | .rnd x _ => { regs := [x], random := true }
  | .drw _ _ _ => { regs := [regF], display := true }
  | .ldVxK _ => { wait := true }
  | .ldDT _ => { delay := true }
  | .ldST _ => { sound := true }
  | .ldB _ => { memory := (s.i.toNat, 3) }
  | .stRegs x => { memory := (s.i.toNat, x.toNat + 1) }
  | .ldRegs x => { regs := (List.range (x.toNat + 1)).map (BitVec.ofNat 4) }

section Frames

variable {w : Touch} {s t : State} (h : w.frame s t)
include h

/-- Pushing stays within any `Touch` that names the stack. -/
theorem Touch.frame_push (hw : w.stack = true) (a : Word) : w.frame s (t.push a) := by
  obtain ⟨hregs, hindex, -, hrest⟩ := h
  have hstack : w.stack = false → (t.push a).sp = s.sp ∧ (t.push a).stack = s.stack := by simp [hw]
  exact ⟨hregs, hindex, hstack, hrest⟩

/-- Popping stays within any `Touch` that names the stack. -/
theorem Touch.frame_pop (hw : w.stack = true) : w.frame s t.pop := by
  obtain ⟨hregs, hindex, -, hrest⟩ := h
  have hstack : w.stack = false → t.pop.sp = s.sp ∧ t.pop.stack = s.stack := by simp [hw]
  exact ⟨hregs, hindex, hstack, hrest⟩

/-- Starting a key wait stays within any `Touch` that names it. -/
theorem Touch.frame_awaitKey (hw : w.wait = true) (x : Reg) : w.frame s (t.awaitKey x) := by
  obtain ⟨hregs, hindex, hstack, hmem, hdelay, hsound, hkeys, hfb, -, hrest⟩ := h
  have hwait : w.wait = false → (t.awaitKey x).mode = s.mode ∧ (t.awaitKey x).waitReg = s.waitReg := by simp [hw]
  exact ⟨hregs, hindex, hstack, hmem, hdelay, hsound, hkeys, hfb, hwait, hrest⟩

/-- Ending a key wait stays within any `Touch` that names it. -/
theorem Touch.frame_setReady (hw : w.wait = true) : w.frame s t.setReady := by
  obtain ⟨hregs, hindex, hstack, hmem, hdelay, hsound, hkeys, hfb, -, hrest⟩ := h
  have hwait : w.wait = false → t.setReady.mode = s.mode ∧ t.setReady.waitReg = s.waitReg := by simp [hw]
  exact ⟨hregs, hindex, hstack, hmem, hdelay, hsound, hkeys, hfb, hwait, hrest⟩

/-- A draw stays within any `Touch` that names the random source. -/
theorem Touch.frame_drawn (hw : w.random = true) : w.frame s t.drawn := by
  obtain ⟨hregs, hindex, hstack, hmem, hdelay, hsound, hkeys, hfb, hwait, -, hparams⟩ := h
  have hrandom : w.random = false → t.drawn.draws = s.draws := by simp [hw]
  exact ⟨hregs, hindex, hstack, hmem, hdelay, hsound, hkeys, hfb, hwait, hrandom, hparams⟩

/-- A result and its flag stay within any `Touch` that names both registers. -/
theorem Touch.frame_setResultAndFlag {x : Reg} (hx : x ∈ w.regs) (hF : regF ∈ w.regs) (b flag : Byte) :
    w.frame s (t.setResultAndFlag x b flag) :=
  Touch.frame_setReg (Touch.frame_setReg h hx b) hF flag

end Frames

/-- Writing bytes stays within any `Touch` whose memory range is theirs. -/
theorem Touch.frame_writeBytes {w : Touch} (s : State) (a : Nat) (bytes : List Byte)
    (hw : w.memory = (a, bytes.length)) : w.frame s (s.writeBytes a bytes) := by
  have hmem : ∀ c, c < w.memory.1 ∨ w.memory.1 + w.memory.2 ≤ c →
      (s.writeBytes a bytes).readByte c = s.readByte c := by
    intro c hc
    rw [hw] at hc
    rw [State.readByte_writeBytes, if_neg (by omega)]
  simpa [Touch.frame] using hmem

/-- The registers V0..Vx by their numbers (44_index_memory.md R195). -/
theorem mem_map_range_ofNat_iff (x r : Reg) :
    r ∈ (List.range (x.toNat + 1)).map (BitVec.ofNat 4) ↔ r.toNat ≤ x.toNat := by
  revert x r
  decide

/-- Loading V0..Vx stays within the `Touch` that names them. -/
theorem Touch.frame_writeRegs (s : State) (x : Reg) (bytes : List Byte) (hlen : bytes.length = x.toNat + 1) :
    ({ regs := (List.range (x.toNat + 1)).map (BitVec.ofNat 4) } : Touch).frame s (s.writeRegs 0 bytes) := by
  have hregs : ∀ r : Reg, r ∉ (List.range (x.toNat + 1)).map (BitVec.ofNat 4) →
      (s.writeRegs 0 bytes).reg r = s.reg r := by
    intro r hr
    rw [mem_map_range_ofNat_iff] at hr
    rw [State.reg_writeRegs s 0 bytes r (by omega), if_neg (by omega)]
  refine ⟨hregs, ?_⟩
  rw [State.writeRegs_eq]
  exact (Touch.frame_refl _ s).2

/-- Every completed instruction keeps to its `Touch`: each of its writes stays within it. -/
theorem frame_of_exec_next {i : Instr} {s t : State} (h : exec i s = .next t) : (touchOf i s).frame s t := by
  have hself := Touch.frame_refl (touchOf i s) s
  cases i with
  | cls => cases h; exact Touch.frame_setFb hself rfl _
  | jp | jpV0 | seImm | sneImm | seReg | sneReg => cases h; exact Touch.frame_setPc _ s _
  | skp x | sknp x =>
    simp only [exec_skp, exec_sknp] at h
    cases withKey_next h
    exact Touch.frame_setPc _ s _
  | ret =>
    rw [exec_ret] at h
    split at h <;> cases h
    exact Touch.frame_pop hself rfl
  | call nnn =>
    rw [exec_call] at h
    split at h <;> cases h
    exact Touch.frame_push hself rfl _
  | ldImm x | addImm x | ldReg x | orReg x | andReg x | xorReg x | ldVxDT x =>
    cases h
    exact Touch.frame_setReg hself List.mem_cons_self _
  | addReg x | subReg x | shr x | subn x | shl x =>
    cases h
    exact Touch.frame_setResultAndFlag hself List.mem_cons_self (List.mem_cons_of_mem _ List.mem_cons_self) _ _
  | ldI nnn =>
    cases hp : s.params.annnLoadsI with
    | true => cases (exec_ldI_of_annnLoadsI nnn s hp).symm.trans h; exact Touch.frame_setIndex hself rfl _
    | false => cases (exec_ldI_of_not_annnLoadsI hp nnn).symm.trans h; exact hself
  | addI | ldF => cases h; exact Touch.frame_setIndex hself rfl _
  | rnd x kk => cases h; exact Touch.frame_setReg (Touch.frame_drawn hself rfl) List.mem_cons_self _
  | drw x y n =>
    obtain ⟨hbody, -⟩ := withDataRange_next s t _ _ h
    cases hbody
    exact Touch.frame_setReg (Touch.frame_setFb hself rfl _) List.mem_cons_self _
  | ldVxK x => cases h; exact Touch.frame_awaitKey hself rfl x
  | ldDT => cases h; exact Touch.frame_setDelay hself rfl _
  | ldST => cases h; exact Touch.frame_setSound hself rfl _
  | ldB x =>
    obtain ⟨hbody, -⟩ := withDataRange_next s t _ _ h
    cases hbody
    exact Touch.frame_writeBytes s _ _ rfl
  | stRegs x =>
    obtain ⟨hbody, -⟩ := withDataRange_next s t _ _ h
    cases hbody
    exact Touch.frame_writeBytes s _ _ (by rw [regRange_length]; rfl)
  | ldRegs x =>
    obtain ⟨hbody, -⟩ := withDataRange_next s t _ _ h
    cases hbody
    exact Touch.frame_writeRegs s x _ (indexedBytes_length s _)

end Sys2Proof.Machine
end

section
/-! The invariant, and which command and instruction writes which element (10_state.md R20-R31, 40_step.md R101). -/

namespace Sys2Proof.Machine

/-! ## The invariant -/

theorem stateInv_afterReset {p : Config.Params} (hp : p.wf) (draws : Nat) : StateInv (State.afterReset p draws) :=
  ⟨hp, List.length_replicate, Nat.zero_le _, Memory.wf_nil _⟩

/-- Settles O57: after reset the stack has its STACK_DEPTH slots, `SP` is 0 and memory lists nothing. -/
theorem stateInvHoldsAfterReset : Obligations.StateInvHoldsAfterReset :=
  ⟨stateInv_afterReset (by decide) 0, fun _ draws hp => stateInv_afterReset hp draws⟩

/-- A write inside the block keeps the invariant: it reaches memory only. -/
theorem stateInv_writeBytes {s : State} (hs : StateInv s) {a : Nat} {bytes : List Byte}
    (hrange : a + bytes.length ≤ 0x1000) : StateInv (s.writeBytes a bytes) := by
  obtain ⟨hp, hlen, hsp, hmem⟩ := hs
  have hmem' := s.writeBytes_keeps_wf a bytes hrange hmem
  simpa only [StateInv, State.writeBytes_params, State.writeBytes_stack, State.writeBytes_sp] using
    ⟨hp, hlen, hsp, hmem'⟩

/-- Only a call, a return and a store write what the invariant speaks of. -/
theorem stateInv_of_effect {i : Instr} {s t : State} (hs : StateInv s) (h : Effect s i t) : StateInv t := by
  cases h with
  | call nnn hroom =>
    obtain ⟨hp, hlen, hsp, hmem⟩ := hs
    exact ⟨hp, List.length_set.trans hlen, Nat.lt_of_le_of_ne hsp hroom, hmem⟩
  | ret =>
    obtain ⟨hp, hlen, hsp, hmem⟩ := hs
    exact ⟨hp, hlen, (Nat.sub_le _ _).trans hsp, hmem⟩
  | store i bytes hi hrange => exact stateInv_writeBytes hs hrange
  | registers | index | display | delay | sound | wait | draw => exact hs

/-- Settles O58: a step does nothing, only advances, or has the effect of the instruction it completes. -/
theorem everyStepKeepsStateInv : Obligations.EveryStepKeepsStateInv := by
  intro s t hs h
  rcases step_next_cases s t h with ⟨-, rfl⟩ | ⟨-, -, op, -, ⟨i, -, hx⟩ | ⟨e, -, rfl⟩⟩
  · exact hs
  · exact stateInv_of_effect hs (effect_of_exec_next hx)
  · exact hs

/-! ## Commands -/

/-- The step command leaves what the step answers, or the state as it was (60_exceptions.md R232). -/
theorem command_step_state_cases (s : State) :
    (∃ t, step s = .next t ∧ (command .step s).1 = t) ∨ (command .step s).1 = s := by
  cases h : step s with
  | next t => exact .inl ⟨t, rfl, command_step_state_of_next h⟩
  | fault f => right; simp only [command, h, stateAfter]
  | refused r => right; simp only [command, h, stateAfter]

/-- The loadProgram command copies a program that fits, or leaves the state as it was (20_memory.md R70). -/
theorem command_loadProgram_state_cases (bytes : List Byte) (s : State) :
    ((command (.loadProgram bytes) s).1 = s.writeBytes 0x200 bytes ∧ bytes.length ≤ 3584) ∨
      (command (.loadProgram bytes) s).1 = s := by
  rcases loadProgram_cases bytes s with ⟨hload, hfits⟩ | ⟨hload, -⟩
  · rw [command_loadProgram_of_next hload]
    exact .inl ⟨rfl, hfits⟩
  · rw [command_loadProgram_of_fault hload]
    exact .inr rfl

/-- The resume command, when a key wait is pending and when not (45_timers_keys.md R213). -/
theorem command_resume_of_awaitKey {s : State} (h : s.mode = .awaitKey) (k : Key) :
    (command (.resume k) s).1 = ((s.setReg s.waitReg (k.setWidth 8)).advance).setReady := by
  simp only [command, resume, h]

theorem command_resume_of_ready {s : State} (h : s.mode = .ready) (k : Key) : (command (.resume k) s).1 = s := by
  simp only [command, resume, h]

/-- A reset restores the invariant, and a program that fits is loaded inside the block. -/
theorem stateInv_command (c : Command) {s : State} (hs : StateInv s) : StateInv (command c s).1 := by
  cases c with
  | reset =>
    obtain ⟨hp, -⟩ := hs
    exact stateInv_afterReset hp s.draws
  | loadProgram bytes =>
    rcases command_loadProgram_state_cases bytes s with ⟨h, hfits⟩ | h <;> rw [h]
    · exact stateInv_writeBytes hs (by omega)
    · exact hs
  | step =>
    rcases command_step_state_cases s with ⟨t, hstep, h⟩ | h <;> rw [h]
    · exact everyStepKeepsStateInv s t hs hstep
    · exact hs
  | resume k =>
    cases hm : s.mode with
    | awaitKey => rw [command_resume_of_awaitKey hm]; exact hs
    | ready => rw [command_resume_of_ready hm]; exact hs
  | tick | setKeyState | read => exact hs

/-- Settles O59: every command keeps the invariant, so every sequence of them does. -/
theorem everyCommandSequenceKeepsStateInv : Obligations.EveryCommandSequenceKeepsStateInv :=
  runCommands_keeps StateInv fun c _ => stateInv_command c

/-! ## Writers -/

/-- Settles O53: each clause is read off the effect of the instruction. -/
theorem eachElementHasOnlyItsNamedWriters : Obligations.EachElementHasOnlyItsNamedWriters := by
  intro i s t h
  cases effect_of_exec_next h with
  | index _ _ _ hi => simp [hi]
  | display _ _ _ _ hi => simp [hi]
  | store _ _ hi => simp [storeIndexed, hi]
  | registers | call | ret | delay | sound | wait | draw => simp

theorem params_of_exec_next {i : Instr} {s t : State} (h : exec i s = .next t) : t.params = s.params := by
  obtain ⟨-, hparams, -⟩ := eachElementHasOnlyItsNamedWriters i s t h
  exact hparams

theorem command_params (c : Command) (s : State) : (command c s).1.params = s.params := by
  cases c with
  | loadProgram bytes =>
    rcases command_loadProgram_state_cases bytes s with ⟨h, -⟩ | h <;> rw [h]
    exact State.writeBytes_params s 0x200 bytes
  | step =>
    rcases step_command_cases s with ⟨-, h | h⟩ | ⟨i, t, -, hx, h⟩ <;> rw [h]
    · rfl
    · exact params_of_exec_next hx
  | resume k =>
    cases hm : s.mode with
    | awaitKey => rw [command_resume_of_awaitKey hm]; rfl
    | ready => rw [command_resume_of_ready hm]
  | reset | tick | setKeyState | read => rfl

/-- Settles O56: what every command keeps, every sequence of commands keeps. -/
theorem parametersAreFixedForAMachine : Obligations.ParametersAreFixedForAMachine := fun cs s =>
  runCommands_keeps (fun t => t.params = s.params) (fun c t ht => (command_params c t).trans ht) cs s rfl

/-- A register range from V0 reaches VF only when it ends there. -/
theorem eq_regF_of_mem_range {x : Reg} (h : regF ∈ (List.range (x.toNat + 1)).map (BitVec.ofNat 4)) : x = regF := by
  have hle := (mem_map_range_ofNat_iff x regF).mp h
  exact BitVec.eq_of_toNat_eq (Nat.le_antisymm (Nat.le_of_lt_succ x.isLt) hle)

/-- Settles O52: VF is among the registers the instruction may write, and its row says which they are. -/
theorem vFChangesOnlyByItsWriters : Obligations.VFChangesOnlyByItsWriters := by
  intro i s t h hne
  obtain ⟨hregs, -⟩ := frame_of_exec_next h
  have hF : regF ∈ (touchOf i s).regs := by
    by_contra hF
    exact hne (hregs regF hF)
  cases i with
  | addReg x y | subReg x y | shr x y | subn x y | shl x y => exact .inl ⟨x, y, by simp⟩
  | drw x y n => exact .inr (.inl ⟨x, y, n, rfl⟩)
  | ldImm x kk | addImm x kk | rnd x kk =>
    obtain rfl := List.mem_singleton.mp hF
    exact .inr (.inr (.inl ⟨kk, by simp⟩))
  | ldReg x y | orReg x y | andReg x y | xorReg x y =>
    obtain rfl := List.mem_singleton.mp hF
    exact .inr (.inr (.inr (.inl ⟨y, by simp⟩)))
  | ldVxDT x =>
    obtain rfl := List.mem_singleton.mp hF
    exact .inr (.inr (.inr (.inr (.inl rfl))))
  | ldRegs x =>
    obtain rfl := eq_regF_of_mem_range hF
    exact .inr (.inr (.inr (.inr (.inr rfl))))
  | _ => cases hF

/-! ## Calls and returns -/

/-- Only a call and a return write `SP`. -/
theorem sp_of_effect {i : Instr} {s t : State} (h : Effect s i t) : (t.sp : Int) = s.sp + callDelta i := by
  cases h with
  | call => rfl
  | ret hsome => simp only [State.setPc_sp, State.pop_sp, callDelta]; omega
  | registers i v pc hcalls => simp [hcalls]
  | index i a pc hi => obtain ⟨nnn, rfl⟩ | ⟨x, rfl | rfl⟩ := hi <;> rfl
  | display i v f pc hi => obtain rfl | ⟨x, y, n, rfl⟩ := hi <;> rfl
  | store i bytes hi hrange => obtain ⟨x, rfl | rfl⟩ := hi <;> simp [storeIndexed, callDelta]
  | delay | sound | wait | draw => rfl

theorem stepDelta_of_completedInstr {s : State} {i : Instr} (h : completedInstr s = some i) :
    stepDelta s = callDelta i := by
  simp only [stepDelta, h]

theorem stepDelta_of_none {s : State} (h : completedInstr s = none) : stepDelta s = 0 := by
  simp only [stepDelta, h]

theorem sp_command {c : Command} (s : State) (hc : c ≠ .reset) :
    ((command c s).1.sp : Int) = s.sp + commandDelta c s := by
  cases c with
  | reset => exact absurd rfl hc
  | loadProgram bytes =>
    rcases command_loadProgram_state_cases bytes s with ⟨h, -⟩ | h <;> simp [h, commandDelta]
  | step =>
    rcases step_command_cases s with ⟨hnone, h | h⟩ | ⟨i, t, hi, hx, h⟩ <;> rw [h, commandDelta]
    · rw [stepDelta_of_none hnone, Int.add_zero]
    · rw [stepDelta_of_none hnone, Int.add_zero, State.advance_sp]
    · rw [stepDelta_of_completedInstr hi, sp_of_effect (effect_of_exec_next hx)]
  | resume k =>
    cases hm : s.mode with
    | awaitKey => rw [command_resume_of_awaitKey hm]; exact (Int.add_zero _).symm
    | ready => rw [command_resume_of_ready hm]; exact (Int.add_zero _).symm
  | tick | setKeyState | read => exact (Int.add_zero _).symm

theorem sp_runCommands (cs : List Command) (s : State) (hcs : ∀ c ∈ cs, c ≠ .reset) :
    ((runCommands cs s).sp : Int) = s.sp + netCalls cs s := by
  induction cs generalizing s with
  | nil => exact (Int.add_zero _).symm
  | cons c rest ih =>
    obtain ⟨hc, hrest⟩ := List.forall_mem_cons.mp hcs
    rw [runCommands, ih (command c s).1 hrest, sp_command s hc, netCalls, Int.add_assoc]

/-- Settles O16: command by command, and summed along the sequence. -/
theorem spMovesByCompletedCallsLessReturns : Obligations.SpMovesByCompletedCallsLessReturns :=
  ⟨fun _ s hc => sp_command s hc, sp_runCommands, fun _ _ => rfl⟩

/-! ## Timers -/

/-- The truncated subtraction is the test for 0 (45_timers_keys.md R210). -/
theorem countDown_toNat (b : Byte) : (countDown b).toNat = b.toNat - 1 := by
  unfold countDown
  split
  · next h => rw [h]; rfl
  · next h => bv_omega

theorem dt_of_exec_next {i : Instr} {s t : State} (h : exec i s = .next t) (hi : ∀ x, i ≠ .ldDT x) : t.dt = s.dt := by
  obtain ⟨-, -, -, -, -, -, -, hdt, -⟩ := eachElementHasOnlyItsNamedWriters i s t h
  exact not_imp_comm.mp hdt (not_exists.mpr hi)

theorem st_of_exec_next {i : Instr} {s t : State} (h : exec i s = .next t) (hi : ∀ x, i ≠ .ldST x) : t.st = s.st := by
  obtain ⟨-, -, -, -, -, -, -, -, hst, -⟩ := eachElementHasOnlyItsNamedWriters i s t h
  exact not_imp_comm.mp hst (not_exists.mpr hi)

/-- Of the commands that write no timer of their own, only the tick moves one. -/
theorem timers_command (c : Command) (s : State) :
    (writesNoDelay c s = true → (command c s).1.dt.toNat = s.dt.toNat - tickCount [c]) ∧
      (writesNoSound c s = true → (command c s).1.st.toNat = s.st.toNat - tickCount [c]) := by
  cases c with
  | reset => exact ⟨nofun, nofun⟩
  | loadProgram bytes =>
    rcases command_loadProgram_state_cases bytes s with ⟨hload, -⟩ | hload <;> simp [hload, tickCount]
  | step =>
    rcases step_command_cases s with ⟨-, hstep | hstep⟩ | ⟨i, t, hi, hx, hstep⟩ <;> rw [hstep]
    · exact ⟨fun _ => rfl, fun _ => rfl⟩
    · exact ⟨fun _ => rfl, fun _ => rfl⟩
    · have hdt (hno : writesNoDelay .step s = true) : t.dt = s.dt :=
        dt_of_exec_next hx fun x e => of_decide_eq_true hno x (e ▸ hi)
      have hst (hno : writesNoSound .step s = true) : t.st = s.st :=
        st_of_exec_next hx fun x e => of_decide_eq_true hno x (e ▸ hi)
      exact ⟨fun hno => congrArg BitVec.toNat (hdt hno), fun hno => congrArg BitVec.toNat (hst hno)⟩
  | tick => exact ⟨fun _ => countDown_toNat s.dt, fun _ => countDown_toNat s.st⟩
  | resume k =>
    cases hm : s.mode with
    | awaitKey => rw [command_resume_of_awaitKey hm]; exact ⟨fun _ => rfl, fun _ => rfl⟩
    | ready => rw [command_resume_of_ready hm]; exact ⟨fun _ => rfl, fun _ => rfl⟩
  | setKeyState | read => exact ⟨fun _ => rfl, fun _ => rfl⟩

/-- What one command does to a timer, summed along a sequence of commands. -/
theorem timer_runCommands {timer : State → Byte} {writesNone : Command → State → Bool}
    (hcommand : ∀ c s, writesNone c s = true → (timer (command c s).1).toNat = (timer s).toNat - tickCount [c])
    (cs : List Command) (s : State) (h : alongRun writesNone cs s = true) :
    (timer (runCommands cs s)).toNat = (timer s).toNat - tickCount cs := by
  induction cs generalizing s with
  | nil => rfl
  | cons c rest ih =>
    rw [alongRun_cons, Bool.and_eq_true] at h
    obtain ⟨hc, hrest⟩ := h
    have hcount : tickCount (c :: rest) = tickCount [c] + tickCount rest := List.count_append (l₁ := [c])
    rw [runCommands, ih (command c s).1 hrest, hcommand c s hc, hcount, Nat.sub_sub]

/-- Settles O45: command by command, and summed along the sequence. -/
theorem timersAreLessTheTicks : Obligations.TimersAreLessTheTicks := fun cs s =>
  ⟨timer_runCommands (timer := State.dt) (fun c s => (timers_command c s).1) cs s,
    timer_runCommands (timer := State.st) (fun c s => (timers_command c s).2) cs s⟩

/-- Settles O44: each timer counts down by its own test, and the command writes both and nothing else. -/
theorem tickCountsBothTimersDown : Obligations.TickCountsBothTimersDown := fun s =>
  ⟨countDown_toNat s.dt, countDown_toNat s.st, rfl, rfl⟩

/-! ## The wait state -/

theorem mode_of_exec_next {i : Instr} {s t : State} (h : exec i s = .next t) (hi : ∀ x, i ≠ .ldVxK x) :
    t.mode = s.mode := by
  obtain ⟨-, -, -, -, -, -, -, -, -, hmode, -⟩ := eachElementHasOnlyItsNamedWriters i s t h
  exact not_imp_comm.mp (fun hne => hmode (.inl hne)) (not_exists.mpr hi)

/-- A step keeps MODE, or it executes Fx0A. -/
theorem mode_step_cases {s t : State} (h : step s = .next t) :
    t.mode = s.mode ∨ (t.mode = .awaitKey ∧ ∃ op x, fetch s = .ok op ∧ decodeWord op = .ok (.ldVxK x)) := by
  rcases step_next_cases s t h with ⟨-, rfl⟩ | ⟨-, -, op, hf, ⟨i, hd, hx⟩ | ⟨-, -, rfl⟩⟩
  · exact .inl rfl
  · by_cases hwait : ∃ x, i = .ldVxK x
    · obtain ⟨x, rfl⟩ := hwait
      cases hx
      exact .inr ⟨rfl, op, x, hf, hd⟩
    · exact .inl (mode_of_exec_next hx (not_exists.mp hwait))
  · exact .inl rfl

/-- A command keeps MODE, or it is a reset or a resume and ends in READY, or a step that executes Fx0A. -/
theorem mode_command_cases (c : Command) (s : State) :
    (command c s).1.mode = s.mode ∨
    ((command c s).1.mode = .ready ∧ (c = .reset ∨ ∃ k, c = .resume k)) ∨
    ((command c s).1.mode = .awaitKey ∧ c = .step ∧ ∃ op x, fetch s = .ok op ∧ decodeWord op = .ok (.ldVxK x)) := by
  cases c with
  | reset => exact .inr (.inl ⟨rfl, .inl rfl⟩)
  | loadProgram bytes =>
    left
    rcases command_loadProgram_state_cases bytes s with ⟨h, -⟩ | h <;> rw [h]
    exact State.writeBytes_mode s 0x200 bytes
  | step =>
    rcases command_step_state_cases s with ⟨t, hstep, h⟩ | h <;> rw [h]
    · rcases mode_step_cases hstep with hkept | ⟨hwait, hop⟩
      · exact .inl hkept
      · exact .inr (.inr ⟨hwait, rfl, hop⟩)
    · exact .inl rfl
  | resume k =>
    cases hm : s.mode with
    | awaitKey => rw [command_resume_of_awaitKey hm]; exact .inr (.inl ⟨rfl, .inr ⟨k, rfl⟩⟩)
    | ready => rw [command_resume_of_ready hm]; exact .inl hm
  | tick | setKeyState | read => exact .inl rfl

/-- Settles O46: by what a command can do to MODE. -/
theorem waitIsEnteredByFx0AAndLeftByResumeOrReset : Obligations.WaitIsEnteredByFx0AAndLeftByResumeOrReset := by
  intro c s
  rcases mode_command_cases c s with h | ⟨h, hc⟩ | ⟨h, hc, hop⟩ <;> rw [h]
  · constructor <;> intro hm hm' <;> cases hm.symm.trans hm'
  · exact ⟨fun _ _ => hc, nofun⟩
  · exact ⟨nofun, fun _ _ => ⟨hc, hop⟩⟩

end Sys2Proof.Machine
end

section
/-! What the step command reports, the key wait as a whole, and the commands that load, reset and resume. -/

namespace Sys2Proof.Machine

/-! ## Statuses -/

theorem fatal_faultStatus (f : Fault) : (faultStatus f).fatal = true := by
  cases f <;> rfl

/-- A completed instruction reports no fatal status (60_exceptions.md R230). -/
theorem not_fatal_completedStatus (op : Word) (i : Instr) (s : State) : (completedStatus op i s).fatal = false := by
  cases i with
  | ldI nnn => simp only [completedStatus]; split <;> rfl
  | _ => rfl

/-- While AWAIT_KEY the step command changes nothing (40_step.md R102). -/
theorem step_of_awaitKey {s : State} (h : s.mode = .awaitKey) : step s = .next s := by
  simp only [step, h, stepAwaiting]

theorem step_of_fetch_error {s : State} {f : Fault} (hm : s.mode = .ready) (hf : fetch s = .error f) :
    step s = .fault f := by
  simp only [step, hm, hf, raise]

theorem stepStatus_of_fetch_error {s : State} {f : Fault} (hm : s.mode = .ready) (hf : fetch s = .error f) :
    stepStatus s = some (faultStatus f) := by
  simp only [stepStatus, hm, hf]

/-- The status of a step agrees with what the step answers (60_exceptions.md R238). -/
theorem stepStatus_cases (s : State) :
    (∃ f, step s = .fault f ∧ stepStatus s = some (faultStatus f)) ∨
      ∃ t st, step s = .next t ∧ stepStatus s = some st ∧ st.fatal = false := by
  cases hm : s.mode with
  | awaitKey => exact .inr ⟨s, .awaitingKey, step_of_awaitKey hm, by simp only [stepStatus, hm], rfl⟩
  | ready =>
    rcases fetch_cases s with ⟨hf, -⟩ | ⟨hf, -⟩
    · rw [stepStatus_of_fetch hm hf]
      cases hd : decodeWord (s.readByte s.pc.toNat ++ s.readByte (s.pc.toNat + 1)) with
      | error e =>
        exact .inr ⟨_, _, step_of_decodeWord_error hm hf hd, opcodeStatus_of_decodeWord_error hd, rfl⟩
      | ok i =>
        rw [step_of_decodeWord_ok hm hf hd]
        cases hx : exec i s with
        | next t =>
          exact .inr ⟨t, _, rfl, opcodeStatus_of_exec_next hd hx, not_fatal_completedStatus _ i s⟩
        | fault f => exact .inl ⟨f, rfl, by simp only [opcodeStatus, hd, hx]⟩
        | refused r => exact absurd hx (exec_never_refuses i s r)
    · exact .inl ⟨_, step_of_fetch_error hm hf, stepStatus_of_fetch_error hm hf⟩

theorem command_step_state_of_fault {s : State} {f : Fault} (h : step s = .fault f) : (command .step s).1 = s := by
  simp only [command, h, stateAfter]

/-- Settles O47: a fatal status is that of a step or a load that faulted, and a fault leaves the state. -/
theorem fatalConditionsChangeNothing : Obligations.FatalConditionsChangeNothing := by
  intro c s st hst hfatal
  cases c with
  | step =>
    rcases stepStatus_cases s with ⟨f, hstep, -⟩ | ⟨t, st', -, hst', hsafe⟩
    · exact command_step_state_of_fault hstep
    · cases hst'.symm.trans hst
      cases hsafe.symm.trans hfatal
  | loadProgram bytes =>
    rcases loadProgram_cases bytes s with ⟨hload, -⟩ | ⟨hload, -⟩
    · rw [command_loadProgram_of_next hload] at hst
      cases hst
      cases hfatal
    · rw [command_loadProgram_of_fault hload]
  | reset | tick | resume | setKeyState | read =>
    cases hst
    cases hfatal

/-- Every instruction but Fx0A and an Annn that loads nothing completes with OK (40_step.md R109). -/
theorem completedStatus_of_other {op : Word} {i : Instr} {s : State} (hK : ∀ x, i ≠ .ldVxK x)
    (hI : s.params.annnLoadsI = true ∨ ∀ nnn, i ≠ .ldI nnn) : completedStatus op i s = .ok := by
  cases i with
  | ldVxK x => exact absurd rfl (hK x)
  | ldI nnn =>
    have hp : s.params.annnLoadsI = true := hI.resolve_right fun h => h nnn rfl
    simp only [completedStatus, hp, if_true]
  | _ => rfl

/-- Settles O48: the status agrees with what the step answers, and the event is built from the same fetch. -/
theorem stepReportsItsStatusAndEvent : Obligations.StepReportsItsStatusAndEvent := by
  intro s
  have hstatus : ∃ st, stepStatus s = some st := by
    rcases stepStatus_cases s with ⟨f, -, hst⟩ | ⟨t, st, -, hst, -⟩ <;> exact ⟨_, hst⟩
  obtain ⟨st, hst⟩ := hstatus
  refine ⟨st, hst, ⟨stepEvent s, rfl, hst⟩, fun f hf => ?_, fun t ht => ?_, fun op hm hf => ⟨?_, ?_, ?_⟩⟩
  · rcases stepStatus_cases s with ⟨f', hstep, hst'⟩ | ⟨t, st', hstep, -⟩
    · cases hstep.symm.trans hf
      cases hst'.symm.trans hst
      exact ⟨rfl, fatal_faultStatus f⟩
    · cases hstep.symm.trans hf
  · refine ⟨?_, command_step_state_of_next ht⟩
    rcases stepStatus_cases s with ⟨f, hstep, -⟩ | ⟨t', st', -, hst', hsafe⟩
    · cases hstep.symm.trans ht
    · cases hst'.symm.trans hst
      exact hsafe
  · simp only [command, stepEvent, stepOpcode, hm, hf, hst, Option.map_some, fieldsOf]
  · intro i t hd hx
    rw [stepStatus_of_fetch hm hf, opcodeStatus_of_exec_next hd hx] at hst
    cases hst
    refine ⟨completedStatus_of_other, ?_, ?_⟩
    · rintro ⟨x, rfl⟩
      rfl
    · rintro hp ⟨nnn, rfl⟩
      exact completedStatus_ldI_of_not_annnLoadsI hp op nnn
  · intro e hd
    rw [stepStatus_of_fetch hm hf, opcodeStatus_of_decodeWord_error hd] at hst
    cases hst
    rfl

/-! ## Fetch -/

/-- The high byte first (20_memory.md R61). -/
theorem toNat_append_bytes (hi lo : Byte) : (hi ++ lo : Word).toNat = 256 * hi.toNat + lo.toNat := by
  have hlo := lo.isLt
  rw [BitVec.toNat_append, ← Nat.shiftLeft_add_eq_or_of_lt hlo, Nat.shiftLeft_eq]
  omega

theorem fetch_of_pc_gt {s : State} (h : 0xFFE < s.pc.toNat) : fetch s = .error (.outOfBounds .fetch s.pc) := by
  rcases fetch_cases s with ⟨-, hle⟩ | ⟨hf, -⟩
  · omega
  · exact hf

/-- Settles O6: the fetch answers the two bytes, or raises, and a step that raises fetched no opcode. -/
theorem fetchIsBigEndianOrOutOfBounds : Obligations.FetchIsBigEndianOrOutOfBounds := by
  refine fun s => ⟨fun hpc => ⟨_, fetch_of_pc_le s hpc, toNat_append_bytes _ _⟩, fun hpc hm => ?_⟩
  have hf := fetch_of_pc_gt hpc
  have hstep := step_of_fetch_error hm hf
  have hstatus := stepStatus_of_fetch_error hm hf
  have hop : stepOpcode s = none := by simp only [stepOpcode, hm, hf]
  refine ⟨hstep, ?_⟩
  simp only [command, hstep, stateAfter, stepEvent, hop, hstatus, Option.map_none, faultStatus]

/-! ## The key wait -/

/-- Settles O8: a waiting step fetches nothing and answers its own state. -/
theorem stepWhileAwaitingChangesNothing : Obligations.StepWhileAwaitingChangesNothing := by
  intro s hm
  have hstep := step_of_awaitKey hm
  have hstatus : stepStatus s = some .awaitingKey := by simp only [stepStatus, hm]
  have hop : stepOpcode s = none := by simp only [stepOpcode, hm]
  refine ⟨hstep, command_step_state_of_next hstep, hstatus, ?_⟩
  simp only [command, stepEvent, hop, hstatus, Option.map_none]

theorem toNat_setWidth_key (k : Key) : (k.setWidth 8).toNat = k.toNat :=
  BitVec.toNat_setWidth_of_le (by decide)

/-- Settles O42: the two cases of MODE; the writes of the waiting one are `Vx`, `PC` and MODE. -/
theorem resumeActsOnlyWhileAwaiting : Obligations.ResumeActsOnlyWhileAwaiting := by
  refine fun s k => ⟨fun hm => command_resume_of_ready hm k, fun hm => ?_⟩
  rw [command_resume_of_awaitKey hm k]
  have hreg : (((s.setReg s.waitReg (k.setWidth 8)).advance).setReady).reg s.waitReg = k.setWidth 8 :=
    State.reg_setReg_same s s.waitReg _
  refine ⟨(congrArg BitVec.toNat hreg).trans (toNat_setWidth_key k), rfl, rfl, rfl, ?_⟩
  exact Touch.frame_setReady (Touch.frame_advance (Touch.frame_setReg (Touch.frame_refl _ s) List.mem_cons_self _)) rfl

theorem runCommands_steps_of_awaitKey {s : State} (h : s.mode = .awaitKey) (n : Nat) : runCommands (steps n) s = s := by
  induction n with
  | zero => rfl
  | succ n ih =>
    rw [steps, List.replicate_succ, runCommands, command_step_state_of_next (step_of_awaitKey h)]
    exact ih

theorem status_of_mem_repliesOf_steps_of_awaitKey {s : State} (h : s.mode = .awaitKey) (n : Nat) :
    ∀ r ∈ repliesOf (steps n) s, r.status = some .awaitingKey := by
  obtain ⟨-, hstate, hstatus, -⟩ := stepWhileAwaitingChangesNothing s h
  induction n with
  | zero => nofun
  | succ n ih =>
    rw [steps, List.replicate_succ, repliesOf, hstate]
    exact List.forall_mem_cons.mpr ⟨hstatus, ih⟩

/-- Settles O41: the first step enters the wait, the others stay in it, and resume acts on the state that was entered. -/
theorem resumeCompletesTheKeyWait : Obligations.ResumeCompletesTheKeyWait := by
  intro s op x k n hm hf hd
  have hx := exec_ldVxK x s
  have hstate : (command .step s).1 = s.awaitKey x :=
    command_step_state_of_next ((step_of_decodeWord_ok hm hf hd).trans hx)
  have hstatus : (command .step s).2.status = some .awaitingKey :=
    (stepStatus_of_fetch hm hf).trans (opcodeStatus_of_exec_next hd hx)
  have hsteps : steps (n + 1) = .step :: steps n := List.replicate_succ
  have hrun : runCommands (steps (n + 1)) s = s.awaitKey x := by
    rw [hsteps, runCommands, hstate, runCommands_steps_of_awaitKey rfl]
  have hresume : runCommands (stepsThenResume (n + 1) k) s =
      (((s.awaitKey x).setReg x (k.setWidth 8)).advance).setReady := by
    rw [stepsThenResume, runCommands_append, hrun]
    exact command_resume_of_awaitKey (s := s.awaitKey x) rfl k
  have hreg : ((((s.awaitKey x).setReg x (k.setWidth 8)).advance).setReady).reg x = k.setWidth 8 :=
    State.reg_setReg_same (s.awaitKey x) x _
  rw [hrun, hresume, hsteps, repliesOf, hstate]
  refine ⟨List.forall_mem_cons.mpr ⟨hstatus, status_of_mem_repliesOf_steps_of_awaitKey rfl n⟩, rfl, rfl, rfl, rfl,
    (congrArg BitVec.toNat hreg).trans (toNat_setWidth_key k), ?_⟩
  exact Touch.frame_setReady (Touch.frame_advance (Touch.frame_setReg
    (Touch.frame_awaitKey (Touch.frame_refl _ s) rfl x) List.mem_cons_self _)) rfl

/-! ## loadProgram and reset -/

/-- Settles O50: the load that fits is one sequence of writes from 0x200 upwards. -/
theorem loadProgramCopiesTheBytes : Obligations.LoadProgramCopiesTheBytes := by
  intro bytes s hlen
  rcases loadProgram_cases bytes s with ⟨hload, -⟩ | ⟨-, hlong⟩
  · rw [command_loadProgram_of_next hload]
    refine ⟨rfl, fun j hj => ?_, State.writeBytes_pc s 0x200 bytes, Touch.frame_writeBytes s 0x200 bytes rfl⟩
    rw [State.readByte_writeBytes, if_pos (by omega), Nat.add_sub_cancel_left]
  · omega

theorem resetByte_font (font : Config.Font) (g : Fin 80) : resetByte font (0x050 + g.val) = font[g] := by
  have hg : 0x050 ≤ 0x050 + g.val ∧ 0x050 + g.val < 0x050 + 80 := by omega
  simp only [resetByte, Config.fontBase, Config.fontSize, dif_pos hg, Nat.add_sub_cancel_left, Fin.getElem_fin]

theorem resetByte_outside_font (font : Config.Font) {a : Nat} (h : a < 0x050 ∨ 0x0A0 ≤ a) : resetByte font a = 0 := by
  unfold resetByte Config.fontBase Config.fontSize
  rw [dif_neg (by omega)]

/-- Settles O51: memory lists nothing, so it reads as the reset contents, and every other element is at its value. -/
theorem resetGivesTheResetState : Obligations.ResetGivesTheResetState := by
  intro s
  have hregs : ∀ r, (State.afterReset s.params s.draws).reg r = 0 := fun r => by simp [State.reg, State.afterReset]
  have hkeys : ∀ k, (State.afterReset s.params s.draws).keyDown k = false := fun k => by
    simp [State.keyDown, State.afterReset]
  exact ⟨resetByte_font s.params.font, fun _ => resetByte_outside_font s.params.font, hregs, rfl, rfl, rfl, rfl, rfl,
    Framebuffer.get_allOff, rfl, hkeys, rfl, rfl, rfl⟩

end Sys2Proof.Machine
end

section
/-! The stores and loads at `I`, the fetch of a stored opcode, and the canonical form of a memory. -/

namespace Sys2Proof.Machine

/-! ## Stores and loads of V0..Vx -/

section Range

variable (x : Reg) (s : State)

theorem exec_stRegs_raises (h : 0xFFF < s.i.toNat + x.toNat) :
    exec (.stRegs x) s = .fault (.outOfBounds .data s.i) := by
  rw [exec_stRegs, withDataRange_raises s _ _ (by omega)]

theorem exec_stRegs_of_range (h : s.i.toNat + x.toNat ≤ 0xFFF) :
    exec (.stRegs x) s = .next (storeIndexed s (regRange s x)).advance := by
  rw [exec_stRegs, withDataRange_ok s _ _ (by omega)]

theorem exec_ldRegs_raises (h : 0xFFF < s.i.toNat + x.toNat) :
    exec (.ldRegs x) s = .fault (.outOfBounds .data s.i) := by
  rw [exec_ldRegs, withDataRange_raises s _ _ (by omega)]

theorem exec_ldRegs_of_range (h : s.i.toNat + x.toNat ≤ 0xFFF) :
    exec (.ldRegs x) s = .next (s.writeRegs 0 (indexedBytes s (x.toNat + 1))).advance := by
  rw [exec_ldRegs, withDataRange_ok s _ _ (by omega)]

theorem exec_ldB_raises (h : 0xFFF < s.i.toNat + 2) : exec (.ldB x) s = .fault (.outOfBounds .data s.i) := by
  rw [exec_ldB, withDataRange_raises s _ _ (by omega)]

theorem exec_ldB_of_range (h : s.i.toNat + 2 ≤ 0xFFF) :
    exec (.ldB x) s = .next (storeIndexed s (bcdDigits (s.reg x))).advance := by
  rw [exec_ldB, withDataRange_ok s _ _ (by omega)]

end Range

theorem pc_storeIndexed (s : State) (bytes : List Byte) : (storeIndexed s bytes).advance.pc = s.pc + 2 :=
  congrArg (· + 2) (State.writeBytes_pc s _ bytes)

/-- What an address reads after a store at `I`. -/
theorem readByte_storeIndexed (s : State) (bytes : List Byte) (a : Nat) :
    (storeIndexed s bytes).advance.readByte a = byteAfterStore s s.i.toNat bytes a :=
  State.readByte_writeBytes s s.i.toNat a bytes

theorem byteAfterStore_inside (s : State) (start : Nat) (bytes : List Byte) {k : Nat} (h : k < bytes.length) :
    byteAfterStore s start bytes (start + k) = bytes.getD k 0 := by
  unfold byteAfterStore
  rw [if_pos (by omega), Nat.add_sub_cancel_left]

theorem readByte_storeIndexed_regRange (s : State) {x r : Reg} (h : r.toNat ≤ x.toNat) :
    (storeIndexed s (regRange s x)).advance.readByte (s.i.toNat + r.toNat) = s.reg r := by
  rw [readByte_storeIndexed, byteAfterStore_inside _ _ _ (by rw [regRange_length]; omega), regRange_getD s x r h]

/-- Settles O33: the range check decides, and the store writes the registers' bytes and nothing else. -/
theorem stRegsStoresTheRange : Obligations.StRegsStoresTheRange := by
  refine ⟨encodedAs_XKK (fun _ => rfl) (fun _ => rfl), fun x s => ⟨exec_stRegs_raises x s, fun hrange => ?_⟩⟩
  have hx := exec_stRegs_of_range x s hrange
  exact ⟨_, hx, fun r hr => readByte_storeIndexed_regRange s hr, pc_storeIndexed s _, frame_of_exec_next hx⟩

theorem reg_writeRegs_indexedBytes (s : State) (x r : Reg) :
    (s.writeRegs 0 (indexedBytes s (x.toNat + 1))).advance.reg r =
      if r.toNat ≤ x.toNat then s.readByte (s.i.toNat + r.toNat) else s.reg r := by
  have hx := x.isLt
  rw [State.advance_reg, State.reg_writeRegs _ _ _ _ (by rw [indexedBytes_length]; omega), indexedBytes_length]
  by_cases hr : r.toNat ≤ x.toNat
  · rw [if_pos (by omega), if_pos hr, indexedBytes, Nat.sub_zero, State.readBytes_getD _ _ _ _ (by omega)]
  · rw [if_neg (by omega), if_neg hr]

theorem pc_writeRegs (s : State) (j : Nat) (bytes : List Byte) : (s.writeRegs j bytes).pc = s.pc := by
  rw [State.writeRegs_eq]

/-- Settles O34: the range check decides, and the load writes the named registers and nothing else. -/
theorem ldRegsLoadsTheRange : Obligations.LdRegsLoadsTheRange := by
  refine ⟨encodedAs_XKK (fun _ => rfl) (fun _ => rfl), fun x s => ⟨exec_ldRegs_raises x s, fun hrange => ?_⟩⟩
  have hx := exec_ldRegs_of_range x s hrange
  exact ⟨_, hx, reg_writeRegs_indexedBytes s x, congrArg (· + 2) (pc_writeRegs s 0 _), frame_of_exec_next hx⟩

/-- Settles O35: the load reads the addresses the store wrote, since `I` and memory are the store's. -/
theorem loadGetsBackTheStoredRegisters : Obligations.LoadGetsBackTheStoredRegisters := by
  intro x s u hrange
  obtain ⟨-, hstore⟩ := stRegsStoresTheRange
  obtain ⟨t, hx, hstored, -, -, hkept, -⟩ := (hstore x s).2 hrange
  refine ⟨t, hx, fun hparams hmem hi => ?_⟩
  have hindex : u.i = s.i := hi.trans (hkept rfl)
  obtain ⟨-, hload⟩ := ldRegsLoadsTheRange
  obtain ⟨w, hx', hregs, -⟩ := (hload x u).2 (by rwa [hindex])
  refine ⟨w, hx', fun r hr => ?_⟩
  calc w.reg r = u.readByte (u.i.toNat + r.toNat) := by rw [hregs, if_pos hr]
    _ = t.readByte (s.i.toNat + r.toNat) := by rw [hindex, State.readByte, State.readByte, hparams, hmem]
    _ = s.reg r := hstored r hr

/-! ## The decimal digits -/

theorem bcdDigits_toNat (b : Byte) :
    ((bcdDigits b).getD 0 0).toNat = b.toNat / 100 ∧ ((bcdDigits b).getD 1 0).toNat = b.toNat / 10 % 10 ∧
      ((bcdDigits b).getD 2 0).toNat = b.toNat % 10 := by
  have hb := b.isLt
  simp only [bcdDigits, List.getD_cons_zero, List.getD_cons_succ, BitVec.toNat_ofNat]
  omega

theorem readByte_storeIndexed_bcdDigits (s : State) (b : Byte) {k : Nat} (hk : k < 3) :
    (storeIndexed s (bcdDigits b)).advance.readByte (s.i.toNat + k) = (bcdDigits b).getD k 0 := by
  rw [readByte_storeIndexed, byteAfterStore_inside _ _ _ hk]

/-- Settles O32: the range check decides, and the store writes the three digits and nothing else. -/
theorem ldBStoresThreeDigits : Obligations.LdBStoresThreeDigits := by
  refine ⟨encodedAs_XKK (fun _ => rfl) (fun _ => rfl), fun x s => ⟨exec_ldB_raises x s, fun hrange => ?_⟩⟩
  have hx := exec_ldB_of_range x s hrange
  have hread {k : Nat} (hk : k < 3) := congrArg BitVec.toNat (readByte_storeIndexed_bcdDigits s (s.reg x) hk)
  obtain ⟨hhundreds, htens, hones⟩ := bcdDigits_toNat (s.reg x)
  exact ⟨_, hx, (hread (by decide : 0 < 3)).trans hhundreds, (hread (by decide : 1 < 3)).trans htens,
    (hread (by decide : 2 < 3)).trans hones, pc_storeIndexed s _, frame_of_exec_next hx⟩

/-! ## A stored opcode -/

/-- The fetch after a store reads the bytes as the store left them (20_memory.md R73). -/
theorem fetch_storeIndexed (s : State) (bytes : List Byte) (h : (s.pc + 2).toNat ≤ 0xFFE) :
    fetch (storeIndexed s bytes).advance = .ok (byteAfterStore s s.i.toNat bytes (s.pc + 2).toNat ++
      byteAfterStore s s.i.toNat bytes ((s.pc + 2).toNat + 1)) := by
  rw [fetch_of_pc_le _ (by rwa [pc_storeIndexed]), pc_storeIndexed, readByte_storeIndexed, readByte_storeIndexed]

/-- With `I` at the next opcode and two bytes stored, they are the next opcode. -/
theorem fetch_storeIndexed_at_pc (s : State) (bytes : List Byte) (h : (s.pc + 2).toNat ≤ 0xFFE) (hi : s.i = s.pc + 2)
    (hlen : 2 ≤ bytes.length) :
    fetch (storeIndexed s bytes).advance = .ok (bytes.getD 0 0 ++ bytes.getD 1 0) := by
  rw [fetch_storeIndexed s bytes h, ← hi, byteAfterStore_inside s _ bytes (k := 1) (by omega)]
  exact congrArg (fun b => Except.ok (b ++ bytes.getD 1 0)) (byteAfterStore_inside s _ bytes (k := 0) (by omega))

/-- Settles O36: both stores only advance `PC`, so the next fetch reads what they left there. -/
theorem storedOpcodeIsFetchedNext : Obligations.StoredOpcodeIsFetchedNext := by
  refine fun x s hpc => ⟨fun hrange => ?_, fun hrange => ?_⟩
  · refine ⟨_, exec_stRegs_of_range x s hrange, fetch_storeIndexed s _ hpc, fun hx hi => ?_⟩
    have hx1 : 1 ≤ x.toNat := Nat.one_le_iff_ne_zero.mpr fun e => hx (BitVec.eq_of_toNat_eq e)
    rw [fetch_storeIndexed_at_pc s _ hpc hi (by rw [regRange_length]; omega),
      ← regRange_getD s x 0 (Nat.zero_le _), ← regRange_getD s x 1 hx1]
    rfl
  · refine ⟨_, exec_ldB_of_range x s hrange, fetch_storeIndexed s _ hpc, fun hi => ?_⟩
    obtain ⟨hhundreds, htens, -⟩ := bcdDigits_toNat (s.reg x)
    refine ⟨_, fetch_storeIndexed_at_pc s _ hpc hi (Nat.le_succ 2), ?_⟩
    rw [toNat_append_bytes, hhundreds, htens]

/-! ## The canonical form -/

theorem Memory.find?_eq_none_of_lt {m : Memory} {a : Nat} (h : ∀ c ∈ m, a < c.1) : Memory.find? m a = none := by
  induction m with
  | nil => rfl
  | cons d rest ih =>
    obtain ⟨hd, hrest⟩ := List.forall_mem_cons.mp h
    rw [Memory.find?, if_neg (by omega), ih hrest]

/-- In a rising list an address is listed with the one byte that is found there. -/
theorem Memory.mem_iff_find? {m : Memory} (h : m.Pairwise fun c d => c.1 < d.1) (a : Nat) (b : Byte) :
    (a, b) ∈ m ↔ Memory.find? m a = some b := by
  induction m with
  | nil => simp [Memory.find?]
  | cons d rest ih =>
    obtain ⟨hhead, hrest⟩ := List.pairwise_cons.mp h
    rw [List.mem_cons, ih hrest, Memory.find?]
    split
    · next e =>
      have hnone : Memory.find? rest a = none := Memory.find?_eq_none_of_lt (e ▸ hhead)
      rw [hnone]
      subst e
      simp [Prod.ext_iff, eq_comm]
    · next hne =>
      have hne' : (a, b) ≠ d := fun e => hne (congrArg Prod.fst e.symm)
      simp [hne']

/-- A canonical memory lists an address exactly when it reads as other than the reset byte, with what it reads. -/
theorem Memory.mem_iff_read {font : Config.Font} {m : Memory} (h : Memory.wf font m) (a : Nat) (b : Byte) :
    (a, b) ∈ m ↔ Memory.read font m a = b ∧ b ≠ resetByte font a := by
  obtain ⟨hrising, hcells⟩ := h
  have hmem := Memory.mem_iff_find? hrising a b
  refine ⟨fun hin => ⟨?_, (hcells _ hin).2⟩, fun ⟨hread, hne⟩ => ?_⟩
  · rw [Memory.read, hmem.mp hin, Option.getD_some]
  · rw [hmem]
    rw [Memory.read] at hread
    cases hfind : Memory.find? m a with
    | none => rw [hfind] at hread; exact absurd hread.symm hne
    | some d => rw [hfind] at hread; exact congrArg some hread

/-- Settles O37: what a canonical memory lists is fixed by what it reads, and two rising lists of the same cells are
equal. -/
theorem canonicalMemoriesThatReadAlikeAreEqual : Obligations.CanonicalMemoriesThatReadAlikeAreEqual := by
  intro font m n hm hn hread
  refine List.Pairwise.eq_of_mem_iff (r := Prod.fst ⁻¹'o (· < ·)) hm.1 hn.1 fun ⟨a, b⟩ => ?_
  rw [Memory.mem_iff_read hm, Memory.mem_iff_read hn, hread a]

end Sys2Proof.Machine
end

section
/-! The second of two blits, and DRW (43_display.md R172-R176). -/

namespace Sys2Proof.Machine

/-! ## Two blits -/

/-- A blit done again on the same cells restores the framebuffer (43_display.md R174). -/
theorem TogglesExactly.restores {f : Framebuffer} {cells : Nat → Nat → Prop} {out₁ out₂ : Framebuffer × Bool}
    (h₁ : TogglesExactly f cells out₁) (h₂ : TogglesExactly out₁.1 cells out₂) : out₂.1 = f := by
  obtain ⟨hcells₁, -⟩ := h₁
  obtain ⟨hcells₂, -⟩ := h₂
  refine Framebuffer.ext_get _ _ fun c r hc hr => Bool.eq_iff_iff.mpr ?_
  rw [hcells₂ c r hc hr, ← Bool.not_eq_true, hcells₁ c r hc hr, ← Bool.not_eq_true]
  tauto

/-- The second blit meets lit exactly the covered cells that were off at first (43_display.md R172; log 28). -/
theorem TogglesExactly.second_collides_iff {f : Framebuffer} {cells : Nat → Nat → Prop}
    {out₁ out₂ : Framebuffer × Bool} (h₁ : TogglesExactly f cells out₁) (h₂ : TogglesExactly out₁.1 cells out₂) :
    out₂.2 = true ↔ ∃ c r, c < 64 ∧ r < 32 ∧ cells c r ∧ f.get c r = false := by
  obtain ⟨hcells₁, -⟩ := h₁
  obtain ⟨-, hcoll₂⟩ := h₂
  have hflip : ∀ c r, c < 64 → r < 32 → cells c r → (out₁.1.get c r = true ↔ f.get c r = false) := by
    intro c r hc hr hcell
    simp [hcells₁ c r hc hr, hcell]
  rw [hcoll₂]
  constructor
  · rintro ⟨c, r, hc, hr, hcell, hlit⟩
    exact ⟨c, r, hc, hr, hcell, (hflip c r hc hr hcell).mp hlit⟩
  · rintro ⟨c, r, hc, hr, hcell, hoff⟩
    exact ⟨c, r, hc, hr, hcell, (hflip c r hc hr hcell).mpr hoff⟩

/-- A blit that covers no cell changes nothing and reports none. -/
theorem TogglesExactly.eq_of_none {f : Framebuffer} {cells : Nat → Nat → Prop} {out : Framebuffer × Bool}
    (h : TogglesExactly f cells out) (hnone : ∀ c r, ¬ cells c r) : out = (f, false) := by
  obtain ⟨hcells, hcoll⟩ := h
  refine Prod.ext (Framebuffer.ext_get _ _ fun c r hc hr => Bool.eq_iff_iff.mpr ?_) (Bool.eq_false_iff.mpr ?_)
  · simp [hcells c r hc hr, hnone c r]
  · simp [hcoll, hnone]

theorem exists_bit_of_ne_zero {byte : Byte} (h : byte ≠ 0) : ∃ b, b < 8 ∧ byte.getLsbD (7 - b) = true := by
  by_contra hnone
  refine h (BitVec.eq_of_getLsbD_eq fun j hj => ?_)
  have hbit : ¬ byte.getLsbD (7 - (7 - j)) = true := fun hset => hnone ⟨7 - j, by omega, hset⟩
  rw [show 7 - (7 - j) = j by omega, Bool.not_eq_true] at hbit
  rw [hbit]
  exact (BitVec.getLsbD_zero).symm

theorem exists_byte_of_spriteCovers {sprite : List Byte} {px py c r : Nat} (h : spriteCovers sprite px py c r) :
    ∃ byte ∈ sprite, byte ≠ 0 := by
  obtain ⟨k, b, hk, -, hbit, -, -⟩ := h
  rw [List.getD_eq_getElem _ _ hk] at hbit
  refine ⟨sprite[k], List.getElem_mem hk, fun hzero => ?_⟩
  simp [hzero] at hbit

/-- A sprite covers some cell exactly when it has a set bit. -/
theorem exists_spriteCovers_iff (sprite : List Byte) (px py : Nat) :
    (∃ c r, c < 64 ∧ r < 32 ∧ spriteCovers sprite px py c r) ↔ ∃ byte ∈ sprite, byte ≠ 0 := by
  constructor
  · rintro ⟨c, r, -, -, hcell⟩
    exact exists_byte_of_spriteCovers hcell
  · rintro ⟨byte, hbyte, hne⟩
    obtain ⟨k, hk, rfl⟩ := List.getElem_of_mem hbyte
    obtain ⟨b, hb, hbit⟩ := exists_bit_of_ne_zero hne
    refine ⟨_, _, Nat.mod_lt (px + b) (by decide), Nat.mod_lt (py + k) (by decide), k, b, hk, hb, ?_, rfl, rfl⟩
    rwa [List.getD_eq_getElem _ _ hk]

/-- Settles O26: both blits toggle the same cells, the second reading them as the first left them. -/
theorem blitIsItsOwnInverse : Obligations.BlitIsItsOwnInverse := by
  intro f px py sprite hlen
  have hfirst := blitSprite_togglesExactly f px py sprite (by omega)
  have hsecond := blitSprite_togglesExactly (blitSprite f px py sprite).1 px py sprite (by omega)
  have hcollides := hfirst.second_collides_iff hsecond
  refine ⟨hfirst.restores hsecond, hcollides, fun hoff => ?_, fun hzero => hfirst.eq_of_none fun c r hcell => ?_⟩
  · rw [hcollides, ← exists_spriteCovers_iff sprite px py]
    constructor
    · rintro ⟨c, r, hc, hr, hcell, -⟩
      exact ⟨c, r, hc, hr, hcell⟩
    · rintro ⟨c, r, hc, hr, hcell⟩
      exact ⟨c, r, hc, hr, hcell, hoff c r hc hr hcell⟩
  · obtain ⟨byte, hbyte, hne⟩ := exists_byte_of_spriteCovers hcell
    exact hne (hzero byte hbyte)

/-- Refutes O27: one lit pixel under a one-pixel sprite. The first blit turns it off, so the second meets no lit cell. -/
theorem not_secondBlitCollidesForEverySetBit : ¬ Obligations.SecondBlitCollidesForEverySetBit := by
  intro h
  have hnone : (blitSprite (blitSprite (Framebuffer.allOff.toggle 0 0) 0 0 [0x80]).1 0 0 [0x80]).2 = false := by decide
  have hcollides := (h (Framebuffer.allOff.toggle 0 0) 0 0 [0x80] (by decide)).mpr ⟨0x80, by decide, by decide⟩
  cases hnone.symm.trans hcollides

/-! ## DRW -/

theorem flagByte_eq_one_iff (c : Bool) : flagByte c = 1 ↔ c = true := by
  cases c <;> decide

theorem flagByte_eq_zero_or_one (c : Bool) : flagByte c = 0 ∨ flagByte c = 1 := by
  cases c <;> decide

theorem exec_drw_raises {n : BitVec 4} (x y : Reg) {s : State} (hn : n ≠ 0) (h : 0xFFF < s.i.toNat + n.toNat - 1) :
    exec (.drw x y n) s = .fault (.outOfBounds .data s.i) := by
  have hpos : n.toNat ≠ 0 := fun e => hn (BitVec.eq_of_toNat_eq e)
  rw [exec_drw, withDataRange_raises s _ _ (by omega)]

theorem exec_drw_of_range {n : BitVec 4} (x y : Reg) {s : State} (h : n = 0 ∨ s.i.toNat + n.toNat - 1 ≤ 0xFFF) :
    exec (.drw x y n) s =
      .next ((s.setFb (drawSprite s x y n).1).setReg regF (flagByte (drawSprite s x y n).2)).advance := by
  have hlen : n.toNat = 0 ∨ s.i.toNat + n.toNat ≤ 0x1000 := by
    rcases h with rfl | h
    · exact .inl rfl
    · omega
  rw [exec_drw, withDataRange_ok s _ _ hlen]

/-- The sprite is the bytes at `I`, at most 15 of them (43_display.md R175). -/
theorem drawSprite_togglesExactly (s : State) (x y : Reg) (n : BitVec 4) :
    TogglesExactly s.fb (spriteCovers (s.readBytes s.i.toNat n.toNat) (s.reg x).toNat (s.reg y).toNat)
      (drawSprite s x y n) := by
  have hn := n.isLt
  exact blitSprite_togglesExactly s.fb _ _ _ (by rw [State.readBytes_length]; omega)

/-- Settles O28: the range check decides, the blit is R172's on the bytes at `I`, and VF is written after it. -/
theorem drwDrawsTheSpriteAtI : Obligations.DrwDrawsTheSpriteAtI := by
  refine ⟨fun op h => decodeWord_of_encode_eq (encodeXYN_of_fields (eq_of_beq h) rfl) rfl,
    fun x y n s => ⟨fun hn => exec_drw_raises x y hn, fun hrange => ?_⟩⟩
  have hx := exec_drw_of_range x y hrange
  obtain ⟨hcells, hcollides⟩ := drawSprite_togglesExactly s x y n
  have hVF : ((s.setFb (drawSprite s x y n).1).setReg regF (flagByte (drawSprite s x y n).2)).advance.reg regF =
      flagByte (drawSprite s x y n).2 := State.reg_setReg_same _ regF _
  refine ⟨_, hx, hcells, ?_, ?_, ?_, rfl, frame_of_exec_next hx⟩
  · rw [hVF, flagByte_eq_one_iff, hcollides]
    simp only [and_comm, and_left_comm]
  · rw [hVF]
    exact flagByte_eq_zero_or_one _
  · rintro rfl
    exact ⟨rfl, hVF⟩

end Sys2Proof.Machine
end

section
/-! Control transfer, the ALU with a flag, the index loads and the key skips, one instruction at a time
(41_control.md, 42_alu.md, 44_index_memory.md, 45_timers_keys.md). -/

namespace Sys2Proof.Machine

/-! ## Control transfer -/

/-- A jump to a target that no fetch can use: it is the next fetch that raises (decision D2). -/
theorem fetch_setPc_raises (s : State) {a : Word} (h : 0xFFE < a.toNat) :
    fetch (s.setPc a) = .error (.outOfBounds .fetch a) :=
  fetch_of_pc_gt h

/-- Settles O10: the jump is one write of `PC`. -/
theorem jpSetsTheCounter : Obligations.JpSetsTheCounter :=
  ⟨encodedAs_NNN (fun _ => rfl) (fun _ => rfl), fun nnn s =>
    ⟨s.setPc nnn, exec_jp nnn s, rfl, Touch.frame_setPc _ s nnn, fetch_setPc_raises s⟩⟩

/-- Settles O14: the jump is one write of `PC`, with the 16-bit sum. -/
theorem jpV0AddsRegisterZero : Obligations.JpV0AddsRegisterZero :=
  ⟨encodedAs_NNN (fun _ => rfl) (fun _ => rfl), fun nnn s =>
    ⟨s.setPc (indexedTarget s nnn), exec_jpV0 nnn s, toNat_add_toWord nnn (s.reg 0x0), Touch.frame_setPc _ s _,
      fetch_setPc_raises s⟩⟩

theorem exec_ret_raises {s : State} (h : s.sp = 0) : exec .ret s = .fault (.stackUnderflow s.pc) := by
  rw [exec_ret, if_pos h]

theorem exec_ret_of_succ {s : State} {n : Nat} (h : s.sp = n + 1) :
    exec .ret s = .next (s.pop.setPc (s.stackSlot n)) := by
  rw [exec_ret, if_neg (by omega), h, Nat.add_sub_cancel]

theorem sp_pop {s : State} {n : Nat} (h : s.sp = n + 1) : s.pop.sp = n := by
  rw [State.pop_sp, h, Nat.add_sub_cancel]

/-- Settles O9: the test of `SP` decides, and the pop leaves the slots. -/
theorem retPopsTheReturnAddress : Obligations.RetPopsTheReturnAddress := by
  refine ⟨rfl, fun s => ⟨exec_ret_raises, fun n hn => ?_⟩⟩
  have hx := exec_ret_of_succ hn
  exact ⟨_, hx, sp_pop hn, rfl, rfl, frame_of_exec_next hx, fetch_setPc_raises s.pop⟩

theorem exec_call_raises (nnn : Word) {s : State} (h : s.sp = s.params.stackDepth) :
    exec (.call nnn) s = .fault (.stackOverflow s.pc) := by
  rw [exec_call, if_pos h]

theorem exec_call_of_lt (nnn : Word) {s : State} (h : s.sp < s.params.stackDepth) :
    exec (.call nnn) s = .next ((s.push (s.pc + 2)).setPc nnn) := by
  rw [exec_call, if_neg (by omega)]

theorem stackSlot_push_same {s : State} (a : Word) (h : s.sp < s.stack.length) : (s.push a).stackSlot s.sp = a := by
  simp [State.stackSlot, h]

theorem stackSlot_push_other (s : State) (a : Word) {k : Nat} (h : k ≠ s.sp) :
    (s.push a).stackSlot k = s.stackSlot k := by
  simp [State.stackSlot, List.getElem?_set_ne h.symm]

/-- Settles O11: the test of `SP` decides; with room the slot exists, by the invariant. -/
theorem callPushesTheNextAddress : Obligations.CallPushesTheNextAddress := by
  refine ⟨encodedAs_NNN (fun _ => rfl) (fun _ => rfl), fun nnn s => ⟨exec_call_raises nnn, fun hs hroom => ?_⟩⟩
  obtain ⟨-, hlen, -, -⟩ := hs
  have hx := exec_call_of_lt nnn hroom
  exact ⟨_, hx, rfl, stackSlot_push_same _ (hlen ▸ hroom), fun k hk => stackSlot_push_other s _ hk, List.length_set,
    rfl, frame_of_exec_next hx⟩

/-- Settles O15: the return pops the slot that the call wrote. -/
theorem returnComesBackAfterTheCall : Obligations.ReturnComesBackAfterTheCall := by
  intro nnn s u hs hroom
  obtain ⟨-, hcall⟩ := callPushesTheNextAddress
  obtain ⟨t, hx, hsp, hslot, -⟩ := (hcall nnn s).2 hs hroom
  refine ⟨t, hx, fun husp huslot => ?_⟩
  have hu : u.sp = s.sp + 1 := husp.trans hsp
  exact ⟨_, exec_ret_of_succ hu, huslot.trans hslot, sp_pop hu⟩

/-- Settles O13: each row's opcodes decode to it, and its meaning is a skip on the comparison. -/
theorem registerSkipsCompareTheRegisters : Obligations.RegisterSkipsCompareTheRegisters := by
  refine ⟨encodedAs_XYN (fun _ _ => rfl) (fun _ _ => rfl), encodedAs_XYN (fun _ _ => rfl) (fun _ _ => rfl),
    fun op h3 h0 => ?_, fun x y s => ⟨?_, ?_⟩⟩
  · rcases h3 with h3 | h3
    · exact (decodeWord_family5 h3).trans ((decodeFamily5_rejects_iff op).mpr h0)
    · exact (decodeWord_family9 h3).trans ((decodeFamily9_rejects_iff op).mpr h0)
  · exact exec_skips_of_eq_skipIf (exec_seReg x y s) beq_iff_eq
  · exact exec_skips_of_eq_skipIf (exec_sneReg x y s) bne_iff_ne

/-! ## The logic operations -/

/-- A result without a flag, told bit by bit. -/
theorem finishReg_bits (s : State) (x : Reg) (result : Byte) {f : Nat → Bool} (hbits : ∀ b, result.getLsbD b = f b) :
    ∃ t, finishReg s x result = .next t ∧ (∀ b, (t.reg x).getLsbD b = f b) ∧ t.pc = s.pc + 2 ∧
      ({ regs := [x] } : Touch).frame s t := by
  obtain ⟨t, hx, hreg, hpc, hframe⟩ := finishReg_writes_only s x result
  exact ⟨t, hx, fun b => by rw [hreg, hbits], hpc, hframe⟩

/-- Settles O18: each is one result in `Vx` without a flag. -/
theorem logicWritesVxOnly : Obligations.LogicWritesVxOnly := by
  refine ⟨encodedAs_XYN (fun _ _ => rfl) (fun _ _ => rfl), encodedAs_XYN (fun _ _ => rfl) (fun _ _ => rfl),
    encodedAs_XYN (fun _ _ => rfl) (fun _ _ => rfl), fun x y s => ⟨?_, ?_, ?_⟩⟩
  · rw [exec_orReg]
    exact finishReg_bits s x _ fun _ => BitVec.getLsbD_or
  · rw [exec_andReg]
    exact finishReg_bits s x _ fun _ => BitVec.getLsbD_and
  · rw [exec_xorReg]
    exact finishReg_bits s x _ fun _ => BitVec.getLsbD_xor

/-- Settles O22: one draw, whose masked byte is a result in `Vx` without a flag. -/
theorem rndMasksOneDraw : Obligations.RndMasksOneDraw := by
  refine ⟨fun op h => decodeWord_of_encode_eq (encodeXKK_of_fields (eq_of_beq h) rfl) rfl, fun x kk s => ?_⟩
  have hx := exec_rnd x s kk
  obtain ⟨t, ht, hbits, hpc, -⟩ :=
    finishReg_bits s.drawn x (Config.randomByte s.draws &&& kk) fun _ => BitVec.getLsbD_and
  cases ht
  exact ⟨_, hx, hbits, rfl, hpc, frame_of_exec_next hx⟩

/-! ## The flag writers -/

/-- What every flag writer does: the result in `Vx`, then the flag in VF, so with `x = F` the flag stays
(42_alu.md R153). -/
theorem finishFlag_writes_only (s : State) (x : Reg) (result flag : Byte) :
    ∃ t, finishFlag s x result flag = .next t ∧ (x ≠ regF → t.reg x = result) ∧ t.reg regF = flag ∧
      t.pc = s.pc + 2 ∧ ({ regs := [x, regF] } : Touch).frame s t := by
  refine ⟨(s.setResultAndFlag x result flag).advance, rfl, fun hx => ?_, State.reg_setReg_same _ regF flag, rfl,
    Touch.frame_advance (Touch.frame_setResultAndFlag (Touch.frame_refl _ s) List.mem_cons_self
      (List.mem_cons_of_mem _ List.mem_cons_self) result flag)⟩
  rw [State.advance_reg, State.reg_setResultAndFlag, if_neg hx, if_pos rfl]

/-- A result and its flag, the result told by its value. -/
theorem finishFlag_values (s : State) (x : Reg) {result flag : Byte} {n : Nat} (hresult : result.toNat = n) :
    ∃ t, finishFlag s x result flag = .next t ∧ (x ≠ regF → (t.reg x).toNat = n) ∧ t.reg regF = flag ∧
      t.pc = s.pc + 2 ∧ ({ regs := [x, regF] } : Touch).frame s t := by
  obtain ⟨t, ht, hreg, hrest⟩ := finishFlag_writes_only s x result flag
  exact ⟨t, ht, fun hx => by rw [hreg hx, hresult], hrest⟩

theorem flagByte_decide (p : Prop) [Decidable p] : flagByte (decide p) = if p then 1 else 0 := by
  simp only [flagByte, decide_eq_true_eq]

/-- Settles O19: the 8-bit sum, with the carry as its flag. -/
theorem addGivesSumAndCarry : Obligations.AddGivesSumAndCarry := by
  refine ⟨encodedAs_XYN (fun _ _ => rfl) (fun _ _ => rfl), fun x y s => ?_⟩
  rw [← flagByte_decide, exec_addReg]
  exact finishFlag_values s x (BitVec.toNat_add _ _)

theorem toNat_sub_byte (a b : Byte) : (a - b).toNat = (a.toNat + 256 - b.toNat) % 256 := by
  bv_omega

/-- Settles O20: the 8-bit differences, with NOT borrow as their flag. -/
theorem subtractionsGiveDifferenceAndNotBorrow : Obligations.SubtractionsGiveDifferenceAndNotBorrow := by
  refine ⟨encodedAs_XYN (fun _ _ => rfl) (fun _ _ => rfl), encodedAs_XYN (fun _ _ => rfl) (fun _ _ => rfl),
    fun x y s => ⟨?_, ?_⟩⟩
  · rw [← flagByte_decide, exec_subReg]
    exact finishFlag_values s x (toNat_sub_byte _ _)
  · rw [← flagByte_decide, exec_subn]
    exact finishFlag_values s x (toNat_sub_byte _ _)

theorem lowBitFlag_toNat (a : Byte) : (lowBitFlag a).toNat = a.toNat % 2 := by
  revert a; decide

theorem highBitFlag_toNat (a : Byte) : (highBitFlag a).toNat = a.toNat / 128 := by
  revert a; decide

theorem toNat_shiftRight_one (a : Byte) : (a >>> 1).toNat = a.toNat / 2 := by
  rw [BitVec.toNat_ushiftRight, Nat.shiftRight_eq_div_pow]

theorem toNat_shiftLeft_one (a : Byte) : (a <<< 1).toNat = 2 * a.toNat % 256 := by
  rw [BitVec.toNat_shiftLeft, Nat.shiftLeft_eq, Nat.mul_comm]

/-- Settles O21: the shifts of `Vx`, with the bit shifted out as their flag. -/
theorem shiftsMoveOneBitIntoTheFlag : Obligations.ShiftsMoveOneBitIntoTheFlag := by
  refine ⟨encodedAs_XYN (fun _ _ => rfl) (fun _ _ => rfl), encodedAs_XYN (fun _ _ => rfl) (fun _ _ => rfl),
    fun x y s => ⟨?_, ?_⟩⟩
  · rw [exec_shr]
    obtain ⟨t, ht, hreg, hflag, hrest⟩ := finishFlag_values s x (toNat_shiftRight_one (s.reg x))
    exact ⟨t, ht, hreg, (congrArg BitVec.toNat hflag).trans (lowBitFlag_toNat _), hrest⟩
  · rw [exec_shl]
    obtain ⟨t, ht, hreg, hflag, hrest⟩ := finishFlag_values s x (toNat_shiftLeft_one (s.reg x))
    exact ⟨t, ht, hreg, (congrArg BitVec.toNat hflag).trans (highBitFlag_toNat _), hrest⟩

/-! ## The loads of `I` -/

/-- Settles O29: the parameter decides between the load and the bare advance. -/
theorem ldILoadsOnlyWithTheParameter : Obligations.LdILoadsOnlyWithTheParameter := by
  refine ⟨encodedAs_NNN (fun _ => rfl) (fun _ => rfl), fun nnn s => ⟨fun hp => ?_, fun hp => ?_⟩⟩
  · have hx := exec_ldI_of_annnLoadsI nnn s hp
    exact ⟨_, hx, rfl, rfl, frame_of_exec_next hx⟩
  · exact ⟨_, exec_ldI_of_not_annnLoadsI hp nnn, rfl, Touch.frame_setPc _ s _⟩

/-- The largest glyph address is 0x54B. -/
theorem glyphAddress_toNat (b : Byte) : (glyphAddress b).toNat = 0x050 + 5 * b.toNat := by
  have hb := b.isLt
  exact Nat.mod_eq_of_lt (show 0x050 + 5 * b.toNat < 65536 by omega)

/-- Settles O31: the glyph address fits its 16 bits for every byte. -/
theorem ldFPointsAtTheGlyph : Obligations.LdFPointsAtTheGlyph := by
  refine ⟨encodedAs_XKK (fun _ => rfl) (fun _ => rfl), fun x s => ?_⟩
  have hx := exec_ldF x s
  exact ⟨_, hx, glyphAddress_toNat (s.reg x), rfl, frame_of_exec_next hx⟩

/-! ## Keys -/

theorem withKey_raises {s : State} {x : Reg} (body : Key → Result) (h : 0xF < (s.reg x).toNat) :
    withKey s x body = .fault (.outOfBounds .key (s.reg x).toWord) := by
  rcases withKey_cases s x body with ⟨-, hle⟩ | ⟨hraise, -⟩
  · omega
  · exact hraise

theorem withKey_of_eq {s : State} {x : Reg} {k : Key} (body : Key → Result) (h : (s.reg x).toNat = k.toNat) :
    withKey s x body = body k := by
  have hk := k.isLt
  have hkey : (s.reg x).setWidth 4 = k := BitVec.eq_of_toNat_eq (by rw [BitVec.toNat_setWidth, h, Nat.mod_eq_of_lt hk])
  rcases withKey_cases s x body with ⟨hbody, -⟩ | ⟨-, hgt⟩
  · rw [hbody, hkey]
  · omega

/-- Settles O39: the check of the key operand decides, and the meaning is a skip on the key's flag. -/
theorem keySkipsTestTheKeyInVx : Obligations.KeySkipsTestTheKeyInVx := by
  refine ⟨encodedAs_XKK (fun _ => rfl) (fun _ => rfl), encodedAs_XKK (fun _ => rfl) (fun _ => rfl), fun x s =>
    ⟨fun hbad => ⟨?_, ?_⟩, fun k hk => ⟨?_, ?_⟩⟩⟩
  · exact (exec_skp x s).trans (withKey_raises _ hbad)
  · exact (exec_sknp x s).trans (withKey_raises _ hbad)
  · exact exec_skips_of_eq_skipIf ((exec_skp x s).trans (withKey_of_eq _ hk)) Iff.rfl
  · exact exec_skips_of_eq_skipIf ((exec_sknp x s).trans (withKey_of_eq _ hk)) (by simp)

/-- Settles O40: the meaning is the one write of MODE and WAITREG. -/
theorem keyWaitIsEntered : Obligations.KeyWaitIsEntered := by
  refine ⟨encodedAs_XKK (fun _ => rfl) (fun _ => rfl), fun x s => ?_⟩
  have hx := exec_ldVxK x s
  exact ⟨_, hx, rfl, rfl, rfl, frame_of_exec_next hx⟩

end Sys2Proof.Machine
end

section
/-! The key flags and ST reach no other instruction (10_state.md R28, R29, 40_step.md R111, 60_exceptions.md R241). -/

namespace Sys2Proof.Machine

/-- The state with the key flags replaced, or ST, or both. -/
def State.withInputs (keys : Option (Vector Bool 16)) (sound : Option Byte) (s : State) : State :=
  { s with key := keys.getD s.key, st := sound.getD s.st }

variable (keys : Option (Vector Bool 16)) (sound : Option Byte)

theorem readBytes_withInputs (s : State) (a len : Nat) :
    (s.withInputs keys sound).readBytes a len = s.readBytes a len := by
  induction len generalizing a with
  | zero => rfl
  | succ len ih => exact congrArg (s.readByte a :: ·) (ih (a + 1))

theorem writeBytes_withInputs (s : State) (a : Nat) (bytes : List Byte) :
    (s.withInputs keys sound).writeBytes a bytes = (s.writeBytes a bytes).withInputs keys sound := by
  induction bytes generalizing s a with
  | nil => rfl
  | cons b rest ih => exact ih (s.writeByte a b) (a + 1)

theorem storeIndexed_withInputs (s : State) (bytes : List Byte) :
    (storeIndexed (s.withInputs keys sound) bytes).advance =
      ((storeIndexed s bytes).advance).withInputs keys sound :=
  congrArg State.advance (writeBytes_withInputs keys sound s s.i.toNat bytes)

theorem writeRegs_withInputs (s : State) (j : Nat) (bytes : List Byte) :
    (s.withInputs keys sound).writeRegs j bytes = (s.writeRegs j bytes).withInputs keys sound := by
  induction bytes generalizing s j with
  | nil => rfl
  | cons b rest ih => exact ih (s.setReg (BitVec.ofNat 4 j) b) (j + 1)

/-- The range check reads neither. -/
theorem withDataRange_withInputs {s : State} {len : Nat} {body body' : Result}
    (h : body' = mapNext (State.withInputs keys sound) body) :
    withDataRange (s.withInputs keys sound) len body' =
      mapNext (State.withInputs keys sound) (withDataRange s len body) := by
  rw [h, withDataRange, withDataRange, apply_ite (mapNext (State.withInputs keys sound))]
  rfl

/-- The check of the key operand reads neither. -/
theorem withKey_withInputs {s : State} {x : Reg} {body body' : Key → Result}
    (h : ∀ k, body' k = mapNext (State.withInputs keys sound) (body k)) :
    withKey (s.withInputs keys sound) x body' = mapNext (State.withInputs keys sound) (withKey s x body) := by
  rw [funext h, withKey, withKey, apply_ite (mapNext (State.withInputs keys sound))]
  rfl

theorem drawSprite_withInputs (s : State) (x y : Reg) (n : BitVec 4) :
    drawSprite (s.withInputs keys sound) x y n = drawSprite s x y n :=
  congrArg (blitSprite s.fb (s.reg x).toNat (s.reg y).toNat) (readBytes_withInputs keys sound s _ _)

/-- An instruction does the same whatever the key flags are, if it is no key skip, and whatever ST is, if it does not write
it. -/
theorem exec_withInputs (i : Instr) (s : State) (hkeys : keys = none ∨ ∀ x, i ≠ .skp x ∧ i ≠ .sknp x)
    (hsound : sound = none ∨ ∀ x, i ≠ .ldST x) :
    exec i (s.withInputs keys sound) = mapNext (State.withInputs keys sound) (exec i s) := by
  cases i with
  | skp x =>
    obtain rfl := hkeys.resolve_right fun h => (h x).1 rfl
    rw [exec_skp, exec_skp]
    exact withKey_withInputs none sound fun _ => rfl
  | sknp x =>
    obtain rfl := hkeys.resolve_right fun h => (h x).2 rfl
    rw [exec_sknp, exec_sknp]
    exact withKey_withInputs none sound fun _ => rfl
  | ldST x =>
    obtain rfl := hsound.resolve_right fun h => h x rfl
    rfl
  | ret =>
    rw [exec_ret, exec_ret, apply_ite (mapNext (State.withInputs keys sound))]
    rfl
  | call nnn =>
    rw [exec_call, exec_call, apply_ite (mapNext (State.withInputs keys sound))]
    rfl
  | ldI nnn =>
    cases hp : s.params.annnLoadsI with
    | true => rw [exec_ldI_of_annnLoadsI nnn s hp, exec_ldI_of_annnLoadsI nnn (s.withInputs keys sound) hp]; rfl
    | false => rw [exec_ldI_of_not_annnLoadsI hp, exec_ldI_of_not_annnLoadsI (s := s.withInputs keys sound) hp]; rfl
  | drw x y n =>
    rw [exec_drw, drawSprite_withInputs]
    exact withDataRange_withInputs keys sound rfl
  | ldB x => exact withDataRange_withInputs keys sound (congrArg _ (storeIndexed_withInputs keys sound s _))
  | stRegs x => exact withDataRange_withInputs keys sound (congrArg _ (storeIndexed_withInputs keys sound s _))
  | ldRegs x =>
    rw [exec_ldRegs, indexedBytes, readBytes_withInputs, writeRegs_withInputs]
    exact withDataRange_withInputs keys sound rfl
  | _ => rfl

/-- Settles O54: the key flags replaced, and ST not. -/
theorem keysReachOnlyTheKeySkips : Obligations.KeysReachOnlyTheKeySkips := fun i s keys hi =>
  exec_withInputs (some keys) none i s (.inr hi) (.inl rfl)

/-- Settles O55: ST replaced, and the key flags not; Fx18 overwrites it. -/
theorem soundTimerReachesNoInstruction : Obligations.SoundTimerReachesNoInstruction := fun i s b =>
  ⟨fun hi => exec_withInputs none (some b) i s (.inl rfl) (.inr hi), fun _ => rfl⟩

end Sys2Proof.Machine
end
